-- ==== Sys2Proof/Word.lean ====
section
/-! DEFINITION. The words and the closed sets of names the whole model uses (spec 00_scope.md R8, R9;
10_state.md R10, R26; 60_exceptions.md R130). -/

namespace Sys2Proof

/-- A 64-bit register value (R1, R26, R27). Bit 0 is the least significant (R8). -/
abbrev Word := BitVec 64

/-- A 32-bit instruction word, a number and not bytes (R43, R64). -/
abbrev InstrWord := BitVec 32

/-- A 32-bit value of the External register (R41). -/
abbrev ExtWord := BitVec 32

/-- The index of a counter and of its control register, 0 to 3 (R1). -/
abbrev CounterIndex := Fin 4

/-- A general register number `t`, 0 to 31; 31 is the zero register (R26, R60, R63). -/
abbrev RegNum := Fin 32

/-- The direction of a System register access: `MRS` reads, `MSR` writes (R60). -/
inductive Direction where
  | mrs
  | msr
  deriving DecidableEq, Repr, Inhabited

/-- The four values of `PSTATE.EL` (R130). -/
inductive ExceptionLevel where
  | el0
  | el1
  | el2
  | el3
  deriving DecidableEq, Repr, Inhabited

/-- The levels a `SystemAccessTrap` can be taken to (R120). -/
inductive TrapTarget where
  | el1
  | el2
  | el3
  deriving DecidableEq, Repr, Inhabited

end Sys2Proof
end

