-- ==== Sys2Proof/Syntax.lean ====
section
/-! DEFINITION. The instructions, one constructor for each row of spec/opcode_table.json; the five-field tuple of
the System register encoding space (spec 30_encoding.md R60); and a program (70_reset_and_hazards.md R148). -/

namespace Sys2Proof

/-- The eight accesses of R61. The operand is the general register number `t` of `<Xt>`, 0 to 31 by its type, so
every `Instr` is well formed. -/
inductive Instr where
  /-- `MRS <Xt>, TRCCNTCTLR0` (R81). -/
  | mrsTrccntctlr0 (t : RegNum)
  /-- `MRS <Xt>, TRCCNTCTLR1` (R81). -/
  | mrsTrccntctlr1 (t : RegNum)
  /-- `MRS <Xt>, TRCCNTCTLR2` (R81). -/
  | mrsTrccntctlr2 (t : RegNum)
  /-- `MRS <Xt>, TRCCNTCTLR3` (R81). -/
  | mrsTrccntctlr3 (t : RegNum)
  /-- `MSR TRCCNTCTLR0, <Xt>` (R82). -/
  | msrTrccntctlr0 (t : RegNum)
  /-- `MSR TRCCNTCTLR1, <Xt>` (R82). -/
  | msrTrccntctlr1 (t : RegNum)
  /-- `MSR TRCCNTCTLR2, <Xt>` (R82). -/
  | msrTrccntctlr2 (t : RegNum)
  /-- `MSR TRCCNTCTLR3, <Xt>` (R82). -/
  | msrTrccntctlr3 (t : RegNum)
  deriving DecidableEq, Repr, Inhabited

/-- Format `SYSREG` (R60): any System register access, whichever register it names. -/
structure SysregAccess where
  direction : Direction
  op0 : BitVec 2
  op1 : BitVec 3
  crn : BitVec 4
  crm : BitVec 4
  op2 : BitVec 3
  t : RegNum
  deriving DecidableEq, Repr

/-- A program (R148, R52): a fixed list of instruction words, word `i` standing at `base + 4 * i`. -/
structure Program where
  base : Word
  words : List InstrWord
  deriving DecidableEq, Repr

end Sys2Proof
end

