-- ==== Sys2Proof/WellFormed.lean ====
section
/-! DEFINITION. Well-formedness. An `Instr` is well formed by its type. A System register access is well formed for
this hardware when it names `TRCCNTCTLR<m>` (spec 30_encoding.md R61, R62), and a program when it has the shape of
70_reset_and_hazards.md R148. -/

namespace Sys2Proof

/-- The tuple names `TRCCNTCTLR<m>` for some m (R61; `CRm<3:2>` must be 0b01, R62). -/
def SysregAccess.wellFormed (a : SysregAccess) : Bool :=
  a.op0 == 0b10#2 && a.op1 == 0b001#3 && a.crn == 0b0000#4 &&
    a.crm.extractLsb' 2 2 == 0b01#2 && a.op2 == 0b101#3

/-- The base is a multiple of 4 and the program ends below 2^64 (R148). -/
def Program.wellFormed (p : Program) : Bool :=
  p.base.toNat % 4 == 0 && decide (p.base.toNat + 4 * p.words.length < 2 ^ 64)

end Sys2Proof
end

