-- ==== Sys2Proof/Decode.lean ====
section
/-! DEFINITION. Decoding in the two levels of spec 30_encoding.md: the 32-bit word to the five-field tuple (R64), and
the tuple to an instruction (R61, R62). Then the encoder, from the same tables. -/

namespace Sys2Proof

/-- What the decoder answers (R68). -/
inductive Decoded where
  /-- One of the eight accesses of R61. -/
  | instr (i : Instr)
  /-- Any other word or tuple: outside the spec, and not UNDEFINED (R68, D1). -/
  | notThisRegister
  deriving DecidableEq, Repr

/-- The instruction with a given direction, index and register number (R61). -/
def instrOf (dir : Direction) (m : CounterIndex) (t : RegNum) : Instr :=
  match dir, m with
  | .mrs, 0 => .mrsTrccntctlr0 t
  | .mrs, 1 => .mrsTrccntctlr1 t
  | .mrs, 2 => .mrsTrccntctlr2 t
  | .mrs, 3 => .mrsTrccntctlr3 t
  | .msr, 0 => .msrTrccntctlr0 t
  | .msr, 1 => .msrTrccntctlr1 t
  | .msr, 2 => .msrTrccntctlr2 t
  | .msr, 3 => .msrTrccntctlr3 t

/-- `MRS` or `MSR` (R60). -/
def Instr.direction : Instr → Direction
  | .mrsTrccntctlr0 _ | .mrsTrccntctlr1 _ | .mrsTrccntctlr2 _ | .mrsTrccntctlr3 _ => .mrs
  | .msrTrccntctlr0 _ | .msrTrccntctlr1 _ | .msrTrccntctlr2 _ | .msrTrccntctlr3 _ => .msr

/-- The counter index m (R62). -/
def Instr.index : Instr → CounterIndex
  | .mrsTrccntctlr0 _ | .msrTrccntctlr0 _ => 0
  | .mrsTrccntctlr1 _ | .msrTrccntctlr1 _ => 1
  | .mrsTrccntctlr2 _ | .msrTrccntctlr2 _ => 2
  | .mrsTrccntctlr3 _ | .msrTrccntctlr3 _ => 3

/-- The general register number t (R63). -/
def Instr.reg : Instr → RegNum
  | .mrsTrccntctlr0 t | .mrsTrccntctlr1 t | .mrsTrccntctlr2 t | .mrsTrccntctlr3 t
  | .msrTrccntctlr0 t | .msrTrccntctlr1 t | .msrTrccntctlr2 t | .msrTrccntctlr3 t => t

/-- Level 1: the tuple to an instruction. The index is `UInt(CRm<1:0>)` (R62). -/
def decodeAccess (a : SysregAccess) : Decoded :=
  if a.wellFormed then .instr (instrOf a.direction (a.crm.extractLsb' 0 2).toFin a.t)
  else .notThisRegister

/-- Level 2: the fields of an `MRS` or `MSR` (register) word, bits 31:22 `1101010100` and bit 20 `1`; `op0` is
`0b1:o0` (R64). `none` for any other word. PRESUMED (the spec's K3), log 13. -/
def wordFields (w : InstrWord) : Option SysregAccess :=
  if w.extractLsb' 22 10 = 0b1101010100#10 ∧ w.extractLsb' 20 1 = 1#1 then
    some
      { direction := if w.extractLsb' 21 1 = 1#1 then .mrs else .msr
        op0 := 1#1 ++ w.extractLsb' 19 1
        op1 := w.extractLsb' 16 3
        crn := w.extractLsb' 12 4
        crm := w.extractLsb' 8 4
        op2 := w.extractLsb' 5 3
        t := (w.extractLsb' 0 5).toFin }
  else none

/-- The decoder, total on 32-bit words (R68). -/
def decode (w : InstrWord) : Decoded :=
  match wordFields w with
  | some a => decodeAccess a
  | none => .notThisRegister

/-- The tuple of an instruction (R61): `CRm = 0b01:m[1:0]` (R62). -/
def Instr.access (i : Instr) : SysregAccess :=
  { direction := i.direction
    op0 := 0b10#2
    op1 := 0b001#3
    crn := 0b0000#4
    crm := 0b01#2 ++ BitVec.ofFin (w := 2) i.index
    op2 := 0b101#3
    t := i.reg }

/-- The word of a tuple whose `op0` is `0b1:o0` (R64). -/
def encodeAccess (a : SysregAccess) : InstrWord :=
  0b1101010100#10 ++ (if a.direction = .mrs then 1#1 else 0#1) ++ 1#1 ++ a.op0.extractLsb' 0 1 ++ a.op1 ++ a.crn ++
    a.crm ++ a.op2 ++ BitVec.ofFin (w := 5) a.t

/-- The instruction's word (R61, R64). -/
def encode (i : Instr) : InstrWord :=
  encodeAccess i.access

/-- What the decoder reads from a word whose bits are numbered as spec/opcode_table.json numbers them: one 32-bit
word, the bits above `nbits` zero. -/
def decodeTableWord (nbits w : Nat) : Option Instr :=
  match decode (BitVec.ofNat 32 (w % 2 ^ nbits)) with
  | .instr i => some i
  | .notThisRegister => none

end Sys2Proof
end

