-- ==== Sys2Proof/Config.lean ====
section
/-! DEFINITION. What an implementation fixes (spec 00_scope.md R6), the OPEN `CounterModel`
(41_counter_control_effects.md R111), and the free values. -/

namespace Sys2Proof

/-- The implementation parameters of R6. They are plain data that State carries and no step writes, so a
statement about every state is one about every implementation. DESIGN CHOICE, log 1. -/
structure Params where
  /-- `FEAT_ETE` is implemented. -/
  featEte : Bool
  /-- "System register access to the trace unit registers is implemented". -/
  sysregTraceAccess : Bool
  /-- `NUM_TRACE_COUNTERS = UInt(TRCIDR5.NUMCNTR)`, 0 to 4 (C2, D17). -/
  numTraceCounters : Fin 5
  /-- `IsFeatureImplemented(FEAT_FGT)`. -/
  featFgt : Bool
  /-- `IsFeatureImplemented(FEAT_TRBE_EXT)`. -/
  featTrbeExt : Bool
  /-- `HaveEL(EL3)`. -/
  haveEl3 : Bool
  /-- `RES0_HARDWIRED`: a RES0 bit reads 0 and ignores writes; otherwise it is stored (R22). -/
  res0Hardwired : Bool
  /-- `RSImplemented(i)` (D21). -/
  rsImplemented : Vector Bool 32
  /-- `RSPairImplemented(k)` (D21). -/
  rsPairImplemented : Vector Bool 16
  /-- `EXT_OFFSET(n)` (D26). Its width is given nowhere (R6, N12): 64 bits is a DESIGN CHOICE, log 1. -/
  extOffset : Vector Word 4
  deriving DecidableEq, Repr

/-- The state of the OPEN `CounterModel`: as many numbers as the model wants. Plain data, since State holds it.
DESIGN CHOICE, log 18. -/
abbrev CounterState := List Nat

/-- What one `TraceUnit` step tells `CounterModel` about one counter (R111). -/
structure CounterInputs where
  /-- `Decrement(n)` by event (R104). -/
  decrementByEvent : Bool
  /-- `Decrement(n)` by chain (R107). -/
  decrementByChain : Bool
  /-- `Reload(n)` by event (R105). -/
  reloadByEvent : Bool
  /-- The bit `RLDSELF(n)` (R106). -/
  rldself : Bool
  deriving DecidableEq, Repr, Inhabited

/-- `CounterModel` of R111: the next counter state, and whether each counter reached zero so that, in Self-reload
mode, a self-reload occurs. The two are functions of the same arguments; they are two fields because the chain
input of an odd counter depends on the self-reload of the even one below it (R107). DESIGN CHOICE, log 18. -/
structure CounterModel where
  /-- The counter state after the step. -/
  next : CounterState → Vector CounterInputs 4 → CounterState
  /-- Whether Counter `n` reaches zero at the step, in the sense that makes R106 speak. -/
  reachesZero : CounterState → Vector CounterInputs 4 → CounterIndex → Bool
  deriving Inhabited

/-- The implementation's `CounterModel`, of which nothing is known (R111, D20). -/
opaque Config.counterModel : CounterModel

/-- Free values, one for each value of State's counter `draws`: `draw : bits(64)` of R24 and R32. Log 6. -/
opaque Config.freeBits : Nat → Word

/-- Free values: `draw : Bool` of R101 to R103. Log 6. -/
opaque Config.freeBool : Nat → Bool

/-- Free values: the state of the counters after a reset, which no source gives (R131). Log 18. -/
opaque Config.freeCounterState : Nat → CounterState

end Sys2Proof
end

