-- ==== Sys2Proof/Machine/State.lean ====
section
/-! DEFINITION. The state of the machine: what spec 10_state.md and the files after it give it, as plain data, and
the state right after reset. -/

namespace Sys2Proof.Machine

/-- The machine stops with a fault. -/
inductive Fault where
  /-- Raised by a turn of the PE while it is stopped by an earlier non-Ok outcome: it "has no further step of its own
  until the environment resumes it" (R125; U14: stuck). Safe. -/
  | peStopped
  deriving DecidableEq, Repr

/-- The inputs of R29, read afresh at every step and under no law (D9). A bit input is true when it is '1'. The
inputs fixed per implementation are in `Params`. -/
structure Env where
  /-- `PSTATE.EL`. -/
  el : ExceptionLevel
  /-- `EL3SDDUndefPriority()`. -/
  el3SddUndefPriority : Bool
  /-- `EL3SDDUndef()`. -/
  el3SddUndef : Bool
  /-- `CPTR_EL3.TTA`. -/
  cptrEl3Tta : Bool
  /-- `CPACR_EL1.TTA`. -/
  cpacrEl1Tta : Bool
  /-- `EL2Enabled()`. -/
  el2Enabled : Bool
  /-- `CPTR_EL2.TTA`. -/
  cptrEl2Tta : Bool
  /-- `SCR_EL3.FGTEn`. -/
  scrEl3FgtEn : Bool
  /-- `HDFGRTR_EL2.TRC`. -/
  hdfgrtrEl2Trc : Bool
  /-- `HDFGWTR_EL2.TRC`. -/
  hdfgwtrEl2Trc : Bool
  /-- `OSLSR_EL1.OSLK`. -/
  oslsrEl1Oslk : Bool
  /-- `HaltingAllowed()`. -/
  haltingAllowed : Bool
  /-- `EDSCR2.TTA`. -/
  edscr2Tta : Bool
  /-- `ELUsingAArch32(EL1)`. -/
  el1UsingAArch32 : Bool
  /-- `TraceUnitIdle`. -/
  traceUnitIdle : Bool
  /-- `ResourcesPaused`. -/
  resourcesPaused : Bool
  /-- `PausedFire` (D22). -/
  pausedFire : Bool
  /-- `RS(i)`. -/
  rs : Vector Bool 32
  /-- `RSPair(k)`. -/
  rsPair : Vector Bool 16
  /-- `CounterSelected(n)`. -/
  counterSelected : Vector Bool 4
  /-- `ExtAccessAllowed` (D26). -/
  extAccessAllowed : Bool
  deriving DecidableEq, Repr

/-- The only reason of `Halt` in R120. -/
inductive HaltReason where
  | softwareAccess
  deriving DecidableEq, Repr

/-- The non-Ok outcomes of R120. -/
inductive Raised where
  /-- The source's "UNDEFINED;". -/
  | undefined
  /-- The source's "AArch64.SystemAccessTrap(ELx, 0x18);": the target level and the code. -/
  | systemAccessTrap (target : TrapTarget) (ec : Nat)
  /-- The source's "Halt(DebugHalt_SoftwareAccess);". -/
  | halt (reason : HaltReason)
  deriving DecidableEq, Repr

/-- The closed outcome type of R120. -/
inductive AccessOutcome where
  /-- The move is made and the pc advances. -/
  | ok
  | raised (e : Raised)
  deriving DecidableEq, Repr

/-- Whether the PE can step (R125). -/
inductive PeStatus where
  | running
  /-- Stopped by this outcome of this instruction, until the environment resumes it. -/
  | stopped (e : Raised) (i : Instr)
  deriving DecidableEq, Repr

/-- The refusals that R137 has recorded in the history. -/
inductive RefusedOperation where
  /-- An operation of the PE that is none of the eight accesses (R68). -/
  | notThisRegister
  /-- An external access while `Env.ExtAccessAllowed` is false (R41, D26). -/
  | extAccessNotAllowed
  /-- An external access to an instance that does not exist (R42, D18). -/
  | extNotImplemented
  /-- An external access that is not one whole aligned 32-bit word at an `EXT_OFFSET(n)` (R44, D14). -/
  | extMalformed
  deriving DecidableEq, Repr

/-- An entry of the event history of R55, or a recorded refusal (R137). -/
inductive Event where
  | sysRead (m : CounterIndex) (value : Word)
  /-- `value` is the 64 bits presented to the register (log 21). -/
  | sysWrite (m : CounterIndex) (value : Word) (idle : Bool)
  | extRead (n : CounterIndex) (value : ExtWord)
  | extWrite (n : CounterIndex) (value : ExtWord) (idle : Bool)
  | reset
  /-- A non-Ok outcome with its instruction. -/
  | raised (e : Raised) (i : Instr)
  /-- The model refused an operation. -/
  | refused (r : RefusedOperation)
  deriving DecidableEq, Repr

/-- The model refuses to step. -/
inductive Refusal where
  /-- Raised by exec for an instruction that has no meaning yet; no arm does. Safe. -/
  | notModelled (mnemonic : String)
  /-- Raised by a turn of the PE on a word that is none of the eight accesses (R68, D1), with the history of the run, in
  which the refusal is recorded (R137, log 15). Safe. -/
  | notThisRegister (history : List Event)
  /-- Raised by every instruction at `pc = 2^64 - 4` (R27, D11). Safe. -/
  | pcAtTop
  /-- Raised by a turn of the PE at `base + 4 * k`: the program has run out (R148). Safe. -/
  | runEnded
  /-- Raised by a turn of the PE at a `pc` where no operation is listed (R52, R148). Safe. -/
  | noInstruction
  /-- Raised by a resumption of a PE that is not stopped, which R127 does not give. Safe. -/
  | resumeNotStopped
  deriving DecidableEq, Repr

/-- The events of one counter at one `TraceUnit` step (R104 to R107). -/
structure CounterEvents where
  decrementByEvent : Bool
  decrementByChain : Bool
  reloadByEvent : Bool
  reloadBySelf : Bool
  deriving DecidableEq, Repr, Inhabited

/-- The state that this hardware does not own (last row of R24's table): after a reset or a resumption it is
whatever the environment makes it. -/
structure Unowned where
  x : Vector Word 31
  pc : Word
  env : Env
  deriving DecidableEq, Repr

/-- What the external debugger can ask (R41, R149), and the shapes R44 speaks of. -/
inductive ExtAccess where
  /-- `ExtRead(n)`. -/
  | read (n : CounterIndex)
  /-- `ExtWrite(n, w)`. -/
  | write (n : CounterIndex) (w : ExtWord)
  /-- An access of `bytes` bytes at an offset of the external register frame, 64 bits wide (DESIGN CHOICE, log 1); `data`
  is none for a read. -/
  | bus (offset : Word) (bytes : Nat) (data : Option ExtWord)
  deriving DecidableEq, Repr

/-- One turn of one agent (R7), or of the environment (R149, R127). -/
inductive Turn where
  | pe
  | debugger (a : ExtAccess)
  | traceUnit
  /-- `Reset` (R24, R140), with what the state it does not own is afterwards. -/
  | reset (u : Unowned)
  /-- The environment changes its inputs (R149). -/
  | environment (e : Env)
  /-- The environment resumes a stopped PE (R125, R127). -/
  | resume (u : Unowned)
  deriving DecidableEq, Repr


/-- The whole machine. -/
structure State where
  /-- The implementation's parameters (R6). -/
  params : Params
  /-- The inputs (R29). -/
  env : Env
  /-- `X0` to `X30` (R26). -/
  x : Vector Word 31
  /-- The address of the instruction being executed (R27). -/
  pc : Word
  /-- Running, or stopped by a non-Ok outcome (R125). -/
  pe : PeStatus
  /-- `TRCCNTCTLR[n]` (R10). A slot whose instance does not exist is reached by no access (log 16). -/
  trccntctlr : Vector Word 4
  /-- The ghost flag `Programmed(n)` (R109). -/
  programmed : Vector Bool 4
  /-- The recorded model fault `CU_WriteNotIdle(n)` (R32). -/
  cuWriteNotIdle : Vector Bool 4
  /-- The state of `CounterModel` (R111). -/
  counterState : CounterState
  /-- The events of the last `TraceUnit` step. -/
  counterEvents : Vector CounterEvents 4
  /-- The event history, oldest first (R55). -/
  history : List Event
  /-- How many free values have been drawn: the model's own field, log 6. -/
  draws : Nat
  /-- The program (R148). -/
  program : Program
  /-- The turns still to come, the next one first; when there is none the PE moves (log 14). -/
  schedule : List Turn
  deriving DecidableEq, Repr

/-- The parameters of State.reset. DESIGN CHOICE; the external offsets are PRESUMED (K10). Log 1. -/
def resetParams : Params :=
  { featEte := true
    sysregTraceAccess := true
    numTraceCounters := 4
    featFgt := false
    featTrbeExt := false
    haveEl3 := false
    res0Hardwired := true
    rsImplemented := Vector.replicate 32 true
    rsPairImplemented := Vector.replicate 16 true
    extOffset := #v[0x150#64, 0x154#64, 0x158#64, 0x15C#64] }

/-- The inputs of State.reset: the "all clear" of 95_test_vectors.md at EL1. DESIGN CHOICE, log 2. -/
def resetEnv : Env :=
  { el := .el1
    el3SddUndefPriority := false
    el3SddUndef := false
    cptrEl3Tta := false
    cpacrEl1Tta := false
    el2Enabled := false
    cptrEl2Tta := false
    scrEl3FgtEn := false
    hdfgrtrEl2Trc := false
    hdfgwtrEl2Trc := false
    oslsrEl1Oslk := false
    haltingAllowed := false
    edscr2Tta := false
    el1UsingAArch32 := false
    traceUnitIdle := true
    resourcesPaused := false
    pausedFire := false
    rs := Vector.replicate 32 false
    rsPair := Vector.replicate 16 false
    counterSelected := Vector.replicate 4 false
    extAccessAllowed := true }

/-- The machine right after reset. R24 and R141 give no value to any register: the values are those of the
assumption log (1 to 5, 9, 10, 12, 17, 18, 21). -/
def State.reset : State :=
  { params := resetParams
    env := resetEnv
    x := Vector.replicate 31 0#64
    pc := 0#64
    pe := .running
    trccntctlr := Vector.replicate 4 0#64
    programmed := Vector.replicate 4 false
    cuWriteNotIdle := Vector.replicate 4 false
    counterState := []
    counterEvents := Vector.replicate 4 ⟨false, false, false, false⟩
    history := []
    draws := 0
    program := ⟨0#64, []⟩
    schedule := [] }

end Sys2Proof.Machine
end

