-- ==== Sys2Proof/Machine/Operands.lean ====
section
/-! DEFINITION. The operands: general registers with the zero register (spec 10_state.md R26), the fields of
`TRCCNTCTLR<n>` (R11, R23), and the selectors inside them (30_encoding.md R72). -/

namespace Sys2Proof.Machine

/-- `X[t, 64]` read: number 31 is XZR and reads 0 (R9, R26, R85). -/
def readX (t : RegNum) (s : State) : Word :=
  if h : t.val < 31 then s.x[t.val] else 0#64

/-- `X[t, 64]` written: a write to number 31 is discarded (R9, R26, R85). -/
def writeX (t : RegNum) (v : Word) (s : State) : State :=
  if h : t.val < 31 then { s with x := s.x.set t.val v } else s

/-- `FIELDMASK(n)` (R23): the bits that are not RES0. The positions are PRESUMED (the spec's K1), log 7. -/
def fieldMask (n : CounterIndex) : Word :=
  if n = 1 ∨ n = 3 then 0x39F9F#64 else 0x19F9F#64

/-- `CNTCHAIN`, bit 17, which is RES0 and treated as 0 in instances 0 and 2 (R13, R14, R108). -/
def cntchain (n : CounterIndex) (r : Word) : Bool :=
  (n = 1 ∨ n = 3) && r.getLsbD 17

/-- `RLDSELF`, bit 16 (R15). -/
def rldself (r : Word) : Bool :=
  r.getLsbD 16

/-- `RLDEVENT_TYPE`, bit 15 (R16). -/
def rldeventType (r : Word) : BitVec 1 :=
  r.extractLsb' 15 1

/-- `RLDEVENT_SEL`, bits 12:8 (R18). -/
def rldeventSel (r : Word) : BitVec 5 :=
  r.extractLsb' 8 5

/-- `CNTEVENT_TYPE`, bit 7 (R19). -/
def cnteventType (r : Word) : BitVec 1 :=
  r.extractLsb' 7 1

/-- `CNTEVENT_SEL`, bits 4:0 (R21). -/
def cnteventSel (r : Word) : BitVec 5 :=
  r.extractLsb' 0 5

/-- A decoded event selector (R72, R100). -/
inductive Selector where
  /-- A Resource Selector, 0 to 31. -/
  | single (i : Fin 32)
  /-- A Boolean-combined pair of Resource Selectors, 0 to 15. -/
  | pair (k : Fin 16)
  deriving DecidableEq, Repr

/-- `SelDecode` (R72): a pair ignores `SEL[4]` (D4). -/
def selDecode (type : BitVec 1) (sel : BitVec 5) : Selector :=
  if type = 0#1 then .single sel.toFin else .pair (sel.extractLsb' 0 4).toFin

/-- `RLDEVENT(n)` (R100). -/
def rldevent (r : Word) : Selector :=
  selDecode (rldeventType r) (rldeventSel r)

/-- `CNTEVENT(n)` (R100). -/
def cntevent (r : Word) : Selector :=
  selDecode (cnteventType r) (cnteventSel r)

end Sys2Proof.Machine
end

