-- ==== Sys2Proof/Machine/Flags.lean ====
section
/-! DEFINITION. There is no condition flag in this machine (spec 10_state.md R28). The flags it has are the model's
records about a run: the ghost flag `Programmed(n)` (41_counter_control_effects.md R109), the model fault
`CU_WriteNotIdle(n)` (R32), and the event history (20_memory.md R55) with the recorded refusals (60_exceptions.md R137). -/

namespace Sys2Proof.Machine

/-- `Programmed(n)`, set by every predictable write (R109). -/
def setProgrammed (n : CounterIndex) (s : State) : State :=
  { s with programmed := s.programmed.set n true }

/-- `Programmed`, cleared by reset (R24). -/
def clearProgrammed (s : State) : State :=
  { s with programmed := Vector.replicate 4 false }

/-- Record `CU_WriteNotIdle(n)`; nothing clears it (R32, R24). -/
def recordWriteNotIdle (n : CounterIndex) (s : State) : State :=
  { s with cuWriteNotIdle := s.cuWriteNotIdle.set n true }

/-- Append to the event history (R55). -/
def record (e : Event) (s : State) : State :=
  { s with history := s.history ++ [e] }

/-- Record a refusal; nothing clears it and nothing else changes (R137). -/
def recordRefusal (r : RefusedOperation) (s : State) : State :=
  record (.refused r) s

end Sys2Proof.Machine
end

