-- ==== Sys2Proof/Machine/Access.lean ====
section
/-! DEFINITION. The access procedure of `MRS` and `MSR` of `TRCCNTCTLR<m>`: its tests, in the source's order and words
(spec 40_mrs_msr.md R80, R81, R82). -/

namespace Sys2Proof.Machine

/-- "AArch64.SystemAccessTrap(ELx, 0x18);" (R120: the code is always 0x18). -/
def accessTrap (target : TrapTarget) : AccessOutcome :=
  .raised (.systemAccessTrap target 0x18)

/-- `FEAT_ETE` and System register access to the trace unit are implemented (R80). -/
def registerPresent (p : Params) : Bool :=
  p.featEte && p.sysregTraceAccess

/-- Instance n is implemented: `UInt(TRCIDR5.NUMCNTR) > n` (R2, C2). -/
def indexImplemented (p : Params) (m : CounterIndex) : Bool :=
  decide (m.val < p.numTraceCounters.val)

/-- The fine-grained trap bit: `HDFGRTR_EL2.TRC` for a read, `HDFGWTR_EL2.TRC` for a write (R81, R82). -/
def fineGrainedTrc (dir : Direction) (e : Env) : Bool :=
  match dir with
  | .mrs => e.hdfgrtrEl2Trc
  | .msr => e.hdfgwtrEl2Trc

/-- The Halt test of the EL1 branch (R81; no AArch32 term, C8). -/
def haltTest (p : Params) (e : Env) : Bool :=
  p.featTrbeExt && !e.oslsrEl1Oslk && e.haltingAllowed && e.edscr2Tta

/-- The EL1 branch (R81, R82). -/
def accessFromEl1 (dir : Direction) (p : Params) (e : Env) : AccessOutcome :=
  if p.haveEl3 && e.el3SddUndefPriority && e.cptrEl3Tta then .raised .undefined
  else if e.cpacrEl1Tta then accessTrap .el1
  else if e.el2Enabled && e.cptrEl2Tta then accessTrap .el2
  else if e.el2Enabled && p.featFgt && (!p.haveEl3 || e.scrEl3FgtEn) && fineGrainedTrc dir e then accessTrap .el2
  else if p.haveEl3 && e.cptrEl3Tta then
    if e.el3SddUndef then .raised .undefined else accessTrap .el3
  else if haltTest p e then .raised (.halt .softwareAccess)
  else .ok

/-- The EL2 branch (R81, R82). -/
def accessFromEl2 (p : Params) (e : Env) : AccessOutcome :=
  if p.haveEl3 && e.el3SddUndefPriority && e.cptrEl3Tta then .raised .undefined
  else if e.cptrEl2Tta then accessTrap .el2
  else if p.haveEl3 && e.cptrEl3Tta then
    if e.el3SddUndef then .raised .undefined else accessTrap .el3
  else if !e.el1UsingAArch32 && haltTest p e then .raised (.halt .softwareAccess)
  else .ok

/-- The EL3 branch (R81, R82). -/
def accessFromEl3 (p : Params) (e : Env) : AccessOutcome :=
  if e.cptrEl3Tta then accessTrap .el3
  else if !e.el1UsingAArch32 && haltTest p e then .raised (.halt .softwareAccess)
  else .ok

/-- The outcome of an access: presence (R80), index, then the branch of `PSTATE.EL` (R81, R82). -/
def accessOutcome (dir : Direction) (m : CounterIndex) (p : Params) (e : Env) : AccessOutcome :=
  if !registerPresent p then .raised .undefined
  else if !indexImplemented p m then .raised .undefined
  else
    match e.el with
    | .el0 => .raised .undefined
    | .el1 => accessFromEl1 dir p e
    | .el2 => accessFromEl2 p e
    | .el3 => accessFromEl3 p e

end Sys2Proof.Machine
end

