-- ==== Sys2Proof/Machine/Ops.lean ====
section
/-! DEFINITION. The named operations: the register array (spec 10_state.md R23, R32), completion, taking an exception
and returning from one (60_exceptions.md R125 to R127, R136), and the two shared accesses. -/

namespace Sys2Proof.Machine

/-- `ReadReg(n)` (R23). -/
def readReg (n : CounterIndex) (s : State) : Word :=
  s.trccntctlr[n]

/-- What a write of v leaves in instance n: RES0 bits are dropped when they are hardwired (R22, R23). -/
def keptBits (p : Params) (n : CounterIndex) (v : Word) : Word :=
  if p.res0Hardwired then v &&& fieldMask n else v

/-- Instance n holds v from now on. -/
def storeReg (n : CounterIndex) (v : Word) (s : State) : State :=
  { s with trccntctlr := s.trccntctlr.set n (keptBits s.params n v) }

/-- `WriteReg(n, v)` (R23). While the trace unit is not Idle the write is CONSTRAINED UNPREDICTABLE: the model fault is
recorded, the register holds a free value, and the step goes on (R32, D7, log 9). -/
def writeReg (n : CounterIndex) (v : Word) (s : State) : State :=
  if s.env.traceUnitIdle then setProgrammed n (storeReg n v s)
  else { recordWriteNotIdle n (storeReg n (Config.freeBits s.draws) s) with draws := s.draws + 1 }

/-- The highest address at which an instruction could stand; the model refuses to step there (R27). -/
def topPc : Word :=
  0xFFFF_FFFF_FFFF_FFFC#64

/-- Completion: `pc <- pc + 4` (R86). -/
def retire (s : State) : State :=
  { s with pc := s.pc + 4#64 }

/-- Taking an exception. A non-Ok outcome is handed to the environment: the PE stops with the outcome, the pc stays at
the instruction, and nothing else changes (R125, R126, D24, log 10). -/
def takeException (e : Raised) (i : Instr) (s : State) : State :=
  record (.raised e i) { s with pe := .stopped e i }

/-- Returning from one: the environment resumes a stopped PE at any pc with any inputs (R125, R127, log 20). -/
def resumePe (u : Unowned) (s : State) : Host.Outcome State Fault Refusal :=
  match s.pe with
  | .running => .refused .resumeNotStopped
  | .stopped _ _ => .next { s with x := u.x, pc := u.pc, env := u.env, pe := .running }

/-- One System register access: refuse at the top of the address space (R27), test (R80 to R82), then either take the
exception or do the move and retire. -/
def accessWith (dir : Direction) (m : CounterIndex) (t : RegNum) (move : State → State) (s : State) :
    Host.Outcome State Fault Refusal :=
  if s.pc = topPc then .refused .pcAtTop
  else
    match accessOutcome dir m s.params s.env with
    | .raised e => .next (takeException e (instrOf dir m t) s)
    | .ok => .next (retire (move s))

/-- The read move: `x[t] <- ReadReg(m)` (R83). -/
def readMove (m : CounterIndex) (t : RegNum) (s : State) : State :=
  record (.sysRead m (readReg m s)) (writeX t (readReg m s) s)

/-- The write move: `WriteReg(m, x[t])` (R84). -/
def writeMove (m : CounterIndex) (t : RegNum) (s : State) : State :=
  record (.sysWrite m (readX t s) s.env.traceUnitIdle) (writeReg m (readX t s) s)

/-- `MRS <Xt>, TRCCNTCTLR<m>` (R81). -/
def mrs (m : CounterIndex) (t : RegNum) (s : State) : Host.Outcome State Fault Refusal :=
  accessWith .mrs m t (readMove m t) s

/-- `MSR TRCCNTCTLR<m>, <Xt>` (R82). -/
def msr (m : CounterIndex) (t : RegNum) (s : State) : Host.Outcome State Fault Refusal :=
  accessWith .msr m t (writeMove m t) s

/-- The ISS of a trapped access: Op0 21:20, Op2 19:17, Op1 16:14, CRn 13:10, Rt 9:5, CRm 4:1, Direction 0
(R136; PRESUMED, the spec's K6, log 10). -/
def trapIss (i : Instr) : BitVec 25 :=
  0#3 ++ i.access.op0 ++ i.access.op2 ++ i.access.op1 ++ i.access.crn ++ BitVec.ofFin (w := 5) i.reg ++
    i.access.crm ++ (if i.direction = .mrs then 1#1 else 0#1)

/-- `ESR_ELx = (ec << 26) | (1 << 25) | ISS` of a trap (R136). -/
def trapSyndrome (ec : Nat) (i : Instr) : Word :=
  0#32 ++ BitVec.ofNat 6 ec ++ 1#1 ++ trapIss i

/-- The syndrome that the target level's handler would see, while the PE is stopped by a trap (R136). For UNDEFINED and
Halt no rule gives one. -/
def reportedSyndrome (s : State) : Option Word :=
  match s.pe with
  | .stopped (.systemAccessTrap _ ec) i => some (trapSyndrome ec i)
  | .stopped .undefined _ | .stopped (.halt _) _ | .running => none

end Sys2Proof.Machine
end

