-- ==== Sys2Proof/Machine/Mrs.lean ====
section
/-! DEFINITION. The meanings of `MRS <Xt>, TRCCNTCTLR<m>`, m = 0 to 3 (spec 40_mrs_msr.md R81). -/

namespace Sys2Proof.Machine

/-- `MRS <Xt>, TRCCNTCTLR0` (R81). -/
def execMrsTrccntctlr0 (t : RegNum) (s : State) : Host.Outcome State Fault Refusal :=
  mrs 0 t s

/-- `MRS <Xt>, TRCCNTCTLR1` (R81). -/
def execMrsTrccntctlr1 (t : RegNum) (s : State) : Host.Outcome State Fault Refusal :=
  mrs 1 t s

/-- `MRS <Xt>, TRCCNTCTLR2` (R81). -/
def execMrsTrccntctlr2 (t : RegNum) (s : State) : Host.Outcome State Fault Refusal :=
  mrs 2 t s

/-- `MRS <Xt>, TRCCNTCTLR3` (R81). -/
def execMrsTrccntctlr3 (t : RegNum) (s : State) : Host.Outcome State Fault Refusal :=
  mrs 3 t s

end Sys2Proof.Machine
end

