-- ==== Sys2Proof/Machine/Msr.lean ====
section
/-! DEFINITION. The meanings of `MSR TRCCNTCTLR<m>, <Xt>`, m = 0 to 3 (spec 40_mrs_msr.md R82). -/

namespace Sys2Proof.Machine

/-- `MSR TRCCNTCTLR0, <Xt>` (R82). -/
def execMsrTrccntctlr0 (t : RegNum) (s : State) : Host.Outcome State Fault Refusal :=
  msr 0 t s

/-- `MSR TRCCNTCTLR1, <Xt>` (R82). -/
def execMsrTrccntctlr1 (t : RegNum) (s : State) : Host.Outcome State Fault Refusal :=
  msr 1 t s

/-- `MSR TRCCNTCTLR2, <Xt>` (R82). -/
def execMsrTrccntctlr2 (t : RegNum) (s : State) : Host.Outcome State Fault Refusal :=
  msr 2 t s

/-- `MSR TRCCNTCTLR3, <Xt>` (R82). -/
def execMsrTrccntctlr3 (t : RegNum) (s : State) : Host.Outcome State Fault Refusal :=
  msr 3 t s

end Sys2Proof.Machine
end

