-- ==== Sys2Proof/Machine/Dispatch.lean ====
section
/-! DEFINITION. One arm per instruction. -/

namespace Sys2Proof.Machine

def exec (i : Instr) (s : State) : Host.Outcome State Fault Refusal :=
  match i with
  | .mrsTrccntctlr0 t => Sys2Proof.Machine.execMrsTrccntctlr0 t s
  | .mrsTrccntctlr1 t => Sys2Proof.Machine.execMrsTrccntctlr1 t s
  | .mrsTrccntctlr2 t => Sys2Proof.Machine.execMrsTrccntctlr2 t s
  | .mrsTrccntctlr3 t => Sys2Proof.Machine.execMrsTrccntctlr3 t s
  | .msrTrccntctlr0 t => Sys2Proof.Machine.execMsrTrccntctlr0 t s
  | .msrTrccntctlr1 t => Sys2Proof.Machine.execMsrTrccntctlr1 t s
  | .msrTrccntctlr2 t => Sys2Proof.Machine.execMsrTrccntctlr2 t s
  | .msrTrccntctlr3 t => Sys2Proof.Machine.execMsrTrccntctlr3 t s

end Sys2Proof.Machine
end

