-- ==== Sys2Proof/Machine/ResetEvent.lean ====
section
/-! DEFINITION. The `Reset` agent (spec 10_state.md R24, 70_reset_and_hazards.md R140): an event that may come at any
step, apart from the state right after power-on, State.reset. -/

namespace Sys2Proof.Machine

/-- The draw of instance n at a reset (R24). -/
def resetDraw (s : State) (n : CounterIndex) : Word :=
  keptBits s.params n (Config.freeBits (s.draws + n.val))

/-- `Reset`: every instance holds a draw, RES0 bits are 0 when hardwired, `Programmed` is cleared, a recorded model fault
is kept, and the state this hardware does not own is what the environment makes it (R24, R140, log 19). -/
def resetEvent (u : Unowned) (s : State) : State :=
  record .reset <| clearProgrammed
    { s with
      trccntctlr := Vector.ofFn (resetDraw s)
      counterState := Config.freeCounterState s.draws
      draws := s.draws + 4
      x := u.x
      pc := u.pc
      env := u.env }

end Sys2Proof.Machine
end

