-- ==== Sys2Proof/Machine/External.lean ====
section
/-! DEFINITION. The external view: `ExtRead(n)`, `ExtWrite(n, w)` (spec 20_memory.md R41, R42) and the shapes of external
access that are refused (R44). A refused access leaves its record in the history and nothing else (60_exceptions.md
R137, log 15), so every access gives a next state. -/

namespace Sys2Proof.Machine

/-- Instance n has an External register: `FEAT_ETE` and n < `NUM_TRACE_COUNTERS` (R42, log 16). -/
def counterImplemented (p : Params) (n : CounterIndex) : Bool :=
  p.featEte && indexImplemented p n

/-- What `ExtRead(n)` returns: bits [31:0] (R41). -/
def extValue (n : CounterIndex) (s : State) : ExtWord :=
  (readReg n s).extractLsb' 0 32

/-- The checks of every external access (R41, R42), then the access. -/
def extGuard (n : CounterIndex) (k : State → State) (s : State) : State :=
  if !s.env.extAccessAllowed then recordRefusal .extAccessNotAllowed s
  else if !counterImplemented s.params n then recordRefusal .extNotImplemented s
  else k s

/-- `ExtRead(n)` (R41): no state changes; the value returned stands in the history. -/
def extRead (n : CounterIndex) (s : State) : State :=
  extGuard n (fun s => record (.extRead n (extValue n s)) s) s

/-- The value `ExtWrite(n, w)` presents to the register: the upper word is kept (R41, D29). -/
def extWriteValue (n : CounterIndex) (w : ExtWord) (s : State) : Word :=
  (readReg n s).extractLsb' 32 32 ++ w

/-- `ExtWrite(n, w)` (R41). -/
def extWrite (n : CounterIndex) (w : ExtWord) (s : State) : State :=
  extGuard n (fun s => record (.extWrite n w s.env.traceUnitIdle) (writeReg n (extWriteValue n w s) s)) s

/-- The instance at an offset of the external register frame; the lowest where two offsets are equal (log 15). -/
def extIndexAt (p : Params) (offset : Word) : Option CounterIndex :=
  [0, 1, 2, 3].find? fun n => p.extOffset[n] == offset

/-- An external access of a shape that has no meaning (R44). -/
def extMalformedAccess (s : State) : State :=
  recordRefusal (if s.env.extAccessAllowed then .extMalformed else .extAccessNotAllowed) s

/-- A whole, naturally aligned 32-bit access to `EXT_OFFSET(n)` is `ExtRead(n)` or `ExtWrite(n, w)`; any other shape is
refused (R44, D14). -/
def extBus (offset : Word) (bytes : Nat) (data : Option ExtWord) (s : State) : State :=
  if bytes = 4 ∧ offset.toNat % 4 = 0 then
    match extIndexAt s.params offset, data with
    | some n, none => extRead n s
    | some n, some w => extWrite n w s
    | none, _ => extMalformedAccess s
  else extMalformedAccess s

/-- One access of the external debugger (R149). -/
def externalAccess (a : ExtAccess) (s : State) : State :=
  match a with
  | .read n => extRead n s
  | .write n w => extWrite n w s
  | .bus offset bytes data => extBus offset bytes data s

end Sys2Proof.Machine
end

