-- ==== Sys2Proof/Machine/TraceUnit.lean ====
section
/-! DEFINITION. One step of the `TraceUnit` agent: the events of every counter and the step of `CounterModel`
(spec 41_counter_control_effects.md R100 to R108, R111). -/

namespace Sys2Proof.Machine

/-- `UnpredictableFire()` (R101): the input `PausedFire` while the resources are Paused, else a free Boolean. -/
def unpredictableFire (e : Env) (free : Bool) : Bool :=
  if e.resourcesPaused then e.pausedFire else free

/-- `EventActive(s)` (R101 to R103). `free` is the draw of this event at this step. -/
def eventActive (p : Params) (e : Env) (free : Bool) (sel : Selector) : Bool :=
  match sel with
  | .single i => if p.rsImplemented[i] then e.rs[i] else unpredictableFire e free
  | .pair k => if k ≠ 0 ∧ p.rsPairImplemented[k] then e.rsPair[k] else unpredictableFire e free

/-- The draw of `CNTEVENT(n)` at this step (log 17). -/
def cnteventDraw (s : State) (n : CounterIndex) : Bool :=
  Config.freeBool (s.draws + 2 * n.val)

/-- The draw of `RLDEVENT(n)` at this step (log 17). -/
def rldeventDraw (s : State) (n : CounterIndex) : Bool :=
  Config.freeBool (s.draws + 2 * n.val + 1)

/-- `Decrement(n)` by event (R104). -/
def decrementByEvent (s : State) (n : CounterIndex) : Bool :=
  counterImplemented s.params n && eventActive s.params s.env (cnteventDraw s n) (cntevent (readReg n s))

/-- `Reload(n)` by event (R105). -/
def reloadByEvent (s : State) (n : CounterIndex) : Bool :=
  counterImplemented s.params n && eventActive s.params s.env (rldeventDraw s n) (rldevent (readReg n s))

/-- The bit `RLDSELF(n)` of an implemented instance (R106). -/
def selfReloadMode (s : State) (n : CounterIndex) : Bool :=
  counterImplemented s.params n && rldself (readReg n s)

/-- What `CounterModel` is told, given which counters a chain decrements (R111). -/
def counterInputs (s : State) (chain : CounterIndex → Bool) : Vector CounterInputs 4 :=
  Vector.ofFn fun n =>
    { decrementByEvent := decrementByEvent s n
      decrementByChain := chain n
      reloadByEvent := reloadByEvent s n
      rldself := selfReloadMode s n }

/-- `Reload(n)` by self-reload: in Self-reload mode, when the counter reaches zero (R106). -/
def reloadBySelf (M : CounterModel) (s : State) (chain : CounterIndex → Bool) (n : CounterIndex) : Bool :=
  selfReloadMode s n && M.reachesZero s.counterState (counterInputs s chain) n

/-- No chain decrement: the chain inputs of the even counters (R108), and what is known when their self-reload is
settled. -/
def noChain (_ : CounterIndex) : Bool :=
  false

/-- `Reload(n)` of an even counter, from whichever cause: what a chain passes on (R107). -/
def evenReload (M : CounterModel) (s : State) (n : CounterIndex) : Bool :=
  reloadByEvent s n || reloadBySelf M s noChain n

/-- `Decrement(n)` by chain: Counter 1 onto Counter 0 and Counter 3 onto Counter 2 only (R107, R108). -/
def decrementByChain (M : CounterModel) (s : State) (n : CounterIndex) : Bool :=
  counterImplemented s.params n && cntchain n (readReg n s) &&
    match n with
    | 0 => false
    | 1 => evenReload M s 0
    | 2 => false
    | 3 => evenReload M s 2

/-- `Reload(n)` by self-reload of any counter: an even one is settled before the chains, an odd one after. -/
def selfReload (M : CounterModel) (s : State) (n : CounterIndex) : Bool :=
  match n with
  | 0 => reloadBySelf M s noChain 0
  | 1 => reloadBySelf M s (decrementByChain M s) 1
  | 2 => reloadBySelf M s noChain 2
  | 3 => reloadBySelf M s (decrementByChain M s) 3

/-- The events of Counter n at this step. -/
def eventsOf (M : CounterModel) (s : State) (n : CounterIndex) : CounterEvents :=
  { decrementByEvent := decrementByEvent s n
    decrementByChain := decrementByChain M s n
    reloadByEvent := reloadByEvent s n
    reloadBySelf := selfReload M s n }

/-- `Decrement(n)`, from whichever cause (R104, R107). -/
def CounterEvents.decrement (v : CounterEvents) : Bool :=
  v.decrementByEvent || v.decrementByChain

/-- `Reload(n)`, from whichever cause (R105, R106). -/
def CounterEvents.reload (v : CounterEvents) : Bool :=
  v.reloadByEvent || v.reloadBySelf

/-- One `TraceUnit` step under a given `CounterModel`: the register array is not written (R113), and eight free values
are used up, two for each counter. -/
def traceUnitStepWith (M : CounterModel) (s : State) : State :=
  { s with
    counterEvents := Vector.ofFn (eventsOf M s)
    counterState := M.next s.counterState (counterInputs s (decrementByChain M s))
    draws := s.draws + 8 }

/-- One `TraceUnit` step of this implementation (R111). -/
def traceUnitStep (s : State) : State :=
  traceUnitStepWith Config.counterModel s

end Sys2Proof.Machine
end

