-- ==== Sys2Proof/Machine/Turns.lean ====
section
/-! DEFINITION. The turns of the agents (spec 00_scope.md R7, 20_memory.md R48): fetching and running one instruction
(70_reset_and_hazards.md R148), and the turn of each of the others. -/

namespace Sys2Proof.Machine

/-- The word listed at an address: word i stands at `base + 4 * i`, and instructions are 4-byte aligned (R148, R27). -/
def fetchWord (p : Program) (pc : Word) : Option InstrWord :=
  if pc.toNat % 4 = 0 ∧ p.base.toNat ≤ pc.toNat ∧ (pc.toNat - p.base.toNat) % 4 = 0 then
    p.words[(pc.toNat - p.base.toNat) / 4]?
  else none

/-- The address is `base + 4 * k`, just past the last operation (R148). -/
def atProgramEnd (p : Program) (pc : Word) : Bool :=
  pc.toNat == p.base.toNat + 4 * p.words.length

/-- A turn of the PE: it has no step while it is stopped (R125); else it runs the instruction listed at the pc. -/
def peTurn (s : State) : Host.Outcome State Fault Refusal :=
  match s.pe with
  | .stopped _ _ => .fault .peStopped
  | .running =>
    match fetchWord s.program s.pc with
    | none => .refused (if atProgramEnd s.program s.pc then .runEnded else .noInstruction)
    | some w =>
      match decode w with
      | .notThisRegister => .refused (.notThisRegister (recordRefusal .notThisRegister s).history)
      | .instr i => exec i s

/-- One turn of one agent. -/
def takeTurn (t : Turn) (s : State) : Host.Outcome State Fault Refusal :=
  match t with
  | .pe => peTurn s
  | .debugger a => .next (externalAccess a s)
  | .traceUnit => .next (traceUnitStep s)
  | .reset u => .next (resetEvent u s)
  | .environment e => .next { s with env := e }
  | .resume u => resumePe u s

/-- The next turn of the schedule, used up; the PE's when there is none (log 14). -/
def nextTurn (s : State) : Host.Outcome State Fault Refusal :=
  match s.schedule with
  | [] => peTurn s
  | t :: rest => takeTurn t { s with schedule := rest }

/-- Load a program of one word at the pc, with the PE running and its turn next (log 12). -/
def loadAtPc (w : InstrWord) (s : State) : State :=
  { s with program := ⟨s.pc, [w]⟩, pe := .running, schedule := [] }

end Sys2Proof.Machine
end

