-- ==== Sys2Proof/Machine/Step.lean ====
section
/-! DEFINITION. One step of the machine: the next turn (spec 20_memory.md R48: the steps of all agents form one order). -/

namespace Sys2Proof.Machine

/-- One step. -/
def step (s : State) : Host.Outcome State Fault Refusal :=
  nextTurn s

/-- The state in which the next step fetches and runs the given word. -/
def State.withFetchWord (s : State) (nbits w : Nat) : State :=
  loadAtPc (BitVec.ofNat 32 (w % 2 ^ nbits)) s

end Sys2Proof.Machine
end

