-- ==== Sys2Proof/Safety.lean ====
section
/-! DEFINITION. What counts as a safe run, in the terms claims use: no recorded model fault or refusal (spec
60_exceptions.md R137), the invariant of hardwired RES0 bits (10_state.md R23), the software obligation of 41_counter_control_effects.md R109,
and the end of a run (70_reset_and_hazards.md R148). -/

namespace Sys2Proof.Machine

/-- No model fault is recorded (R32, R137). -/
def State.noModelFault (s : State) : Prop :=
  ∀ n : CounterIndex, s.cuWriteNotIdle[n] = false

/-- The invariant of R23: when `RES0_HARDWIRED`, every RES0 bit is 0. -/
def State.res0Clear (s : State) : Prop :=
  s.params.res0Hardwired = true → ∀ n : CounterIndex, readReg n s &&& ~~~(fieldMask n) = 0#64

/-- The software obligation of R109: a counter that some `TRCRSCTLR<a>` selects has been programmed when the trace unit
is not Idle. Breaking it adds no unpredictability (D19). -/
def State.programmedWhenSelected (s : State) : Prop :=
  s.env.traceUnitIdle = false → ∀ n : CounterIndex, s.env.counterSelected[n] = true → s.programmed[n] = true

/-- Every word of the program is one of the eight accesses (R148). -/
def programListed (p : Program) : Prop :=
  ∀ w ∈ p.words, ∃ i, decode w = .instr i

/-- No refusal is recorded: with the one above, the premise of every claim about a program (R137). -/
def State.noRefusal (s : State) : Prop :=
  ∀ r, Event.refused r ∉ s.history

/-- No access of the run had an outcome other than Ok (R148). -/
def State.everyOutcomeOk (s : State) : Prop :=
  ∀ e i, Event.raised e i ∉ s.history

/-- A completed access of the PE. -/
def Event.isCompletedAccess : Event → Bool
  | .sysRead _ _ | .sysWrite _ _ _ => true
  | .extRead _ _ | .extWrite _ _ _ | .reset | .raised _ _ | .refused _ => false

/-- The address of the operation that the PE completed in the step from s to t, if it completed one. -/
def completedAt (s t : State) : List Word :=
  if (t.history.drop s.history.length).any Event.isCompletedAccess then [s.pc] else []

/-- A run (R148), with the addresses of the operations it has completed: it starts, with an empty history and the PE
running, with a `Reset` that leaves the pc at the base of the program, and goes on by steps of any agents. A final state
does not end it: turns of the other agents after one stay in the run, and their states may be final too. R148 interleaves
those agents "before that point" and does not say what follows it; DESIGN CHOICE, log 12. -/
inductive Run : List Word → State → Prop where
  | start {s : State} {u : Unowned} :
      s.history = [] → s.pe = .running → s.program.wellFormed = true → programListed s.program →
        u.pc = s.program.base → Run [] (resetEvent u s)
  | more {done : List Word} {s t : State} : Run done s → step s = .next t → Run (done ++ completedAt s t) t

/-- The run has ended and its state is final (R148): the pc is past the last operation, the operation at every
`base + 4 * k` completed, no access had another outcome, and no model fault and no refusal is recorded. -/
def State.final (s : State) : Prop :=
  s.pe = .running ∧ atProgramEnd s.program s.pc = true ∧ s.everyOutcomeOk ∧ s.noRefusal ∧ s.noModelFault ∧
    ∃ done, Run done s ∧
      ∀ k < s.program.words.length, BitVec.ofNat 64 (s.program.base.toNat + 4 * k) ∈ done

end Sys2Proof.Machine
end

