-- ==== Sys2Proof/Certificates/Slice0/Obligations.lean ====
section
/-! DEFINITION. The statements for the provers. Each docstring says which rule of spec/ it formalises; a statement that
rests on a choice of the model or of the spec's own (a decision D, a derivation, a general-knowledge passage K) says so. -/

namespace Sys2Proof.Spec

open Sys2Proof.Machine

/-! ## The access conditions as the tables of 60_exceptions.md sections 2 and 3 list them -/

/-- The labels of R121 (u0 to u6), R122 (t1 to t7) and R123 (the Halt test at EL1, EL2, EL3). -/
inductive Cause where
  | u0
  | u1
  | u2
  | u3
  | u4
  | u5
  | u6
  | t1
  | t2
  | t3
  | t4
  | t5
  | t6
  | t7
  | haltEl1
  | haltEl2
  | haltEl3
  deriving DecidableEq, Repr

/-- `TRC` of R124: HDFGRTR_EL2.TRC for `MRS`, HDFGWTR_EL2.TRC for `MSR`. -/
def trcBit (dir : Direction) (e : Env) : Bool :=
  match dir with
  | .mrs => e.hdfgrtrEl2Trc
  | .msr => e.hdfgwtrEl2Trc

/-- The rows of R124's tables for this direction, index and level, in order: each condition with its label. -/
def priorityTable (dir : Direction) (m : CounterIndex) (p : Params) (e : Env) : List (Bool × Cause) :=
  let halt := p.featTrbeExt && e.oslsrEl1Oslk == false && e.haltingAllowed && e.edscr2Tta
  [(p.featEte == false || p.sysregTraceAccess == false, .u0), (decide (p.numTraceCounters.val ≤ m.val), .u1)] ++
    match e.el with
    | .el0 => [(true, .u2)]
    | .el1 =>
      [(p.haveEl3 && e.el3SddUndefPriority && e.cptrEl3Tta, .u3), (e.cpacrEl1Tta, .t1),
        (e.el2Enabled && e.cptrEl2Tta, .t2),
        (e.el2Enabled && p.featFgt && (p.haveEl3 == false || e.scrEl3FgtEn) && trcBit dir e, .t3),
        (p.haveEl3 && e.cptrEl3Tta && e.el3SddUndef, .u4),
        (p.haveEl3 && e.cptrEl3Tta && e.el3SddUndef == false, .t4), (halt, .haltEl1)]
    | .el2 =>
      [(p.haveEl3 && e.el3SddUndefPriority && e.cptrEl3Tta, .u5), (e.cptrEl2Tta, .t5),
        (p.haveEl3 && e.cptrEl3Tta && e.el3SddUndef, .u6),
        (p.haveEl3 && e.cptrEl3Tta && e.el3SddUndef == false, .t6), (e.el1UsingAArch32 == false && halt, .haltEl2)]
    | .el3 => [(e.cptrEl3Tta, .t7), (e.el1UsingAArch32 == false && halt, .haltEl3)]

/-- The label of the first true condition, for this instruction in this state; none when no condition is true (R124). -/
def firstCause (i : Instr) (s : State) : Option Cause :=
  ((priorityTable i.direction i.index s.params s.env).find? (·.1)).map (·.2)

/-- The PE executes the access normally: no condition of R124 is true, and the pc is not at the top of the address space
(R27). -/
def Permitted (i : Instr) (s : State) : Prop :=
  firstCause i s = none ∧ s.pc ≠ 0xFFFF_FFFF_FFFF_FFFC#64

/-- The PE runs and is not at the top of the address space, where the model refuses every instruction (R27). -/
def Runs (s : State) : Prop :=
  s.pe = .running ∧ s.pc ≠ 0xFFFF_FFFF_FFFF_FFFC#64

/-- The value an instruction reads from its general register: 0 for number 31 (R26). -/
def source (i : Instr) (s : State) : Word :=
  if h : i.reg.val < 31 then s.x[i.reg.val] else 0#64

/-- The bits of instance n that are not RES0: 17 (instances 1 and 3), 16, 15, 12:8, 7 and 4:0 (R11, R23). PRESUMED (K1),
log 7. -/
def fieldBits (n : CounterIndex) : Word :=
  if n = 1 ∨ n = 3 then 0x39F9F#64 else 0x19F9F#64

/-- The bits of v that instance n keeps: all of them, or those that are not RES0 when RES0 is hardwired (R22, R23). -/
def kept (n : CounterIndex) (v : Word) (s : State) : Word :=
  if s.params.res0Hardwired then v &&& fieldBits n else v

/-- When RES0 is hardwired, every RES0 bit of every instance is 0: the invariant of R23. -/
def HardwiredBitsAreZero (s : State) : Prop :=
  s.params.res0Hardwired = true → ∀ n : CounterIndex, s.trccntctlr[n] &&& ~~~(fieldBits n) = 0#64

/-- The match value of R65 for each instruction; the mask is 0xFFFFFFE0 for all. -/
def matchWord : Instr → InstrWord
  | .mrsTrccntctlr0 _ => 0xD53104A0#32
  | .mrsTrccntctlr1 _ => 0xD53105A0#32
  | .mrsTrccntctlr2 _ => 0xD53106A0#32
  | .mrsTrccntctlr3 _ => 0xD53107A0#32
  | .msrTrccntctlr0 _ => 0xD51104A0#32
  | .msrTrccntctlr1 _ => 0xD51105A0#32
  | .msrTrccntctlr2 _ => 0xD51106A0#32
  | .msrTrccntctlr3 _ => 0xD51107A0#32

/-- The external debugger's access a is a write to instance n. -/
def writesTo (a : ExtAccess) (n : CounterIndex) (s : State) : Prop :=
  ∃ w, a = .write n w ∨ ∃ off, a = .bus off 4 (some w) ∧ s.params.extOffset[n] = off

end Sys2Proof.Spec

open Sys2Proof Sys2Proof.Machine Sys2Proof.Spec

/-! ## Encoding -/

/-- 30_encoding.md sections 1 and 2: decoding the word of any of the eight instructions, with any register number, gives
that instruction. The word layout is the spec's K3 (log 13). -/
def Obligations.DecodeOfEncode : Prop :=
  ∀ i : Instr, decode (encode i) = .instr i

/-- 30_encoding.md section 2: a word decodes to an instruction exactly when its mask and match are that instruction's and
its low five bits are the register number; so every other word is `NotThisRegister`. The word layout is the spec's K3
(log 13). -/
def Obligations.DecodeIsMaskAndMatch : Prop :=
  ∀ (w : InstrWord) (i : Instr),
    decode w = .instr i ↔ w &&& 0xFFFFFFE0#32 = matchWord i ∧ i.reg.val = w.toNat % 32

/-- R62, with the other four fields of R61: exactly the tuples of R61 name an instruction, whose index is `UInt(CRm<1:0>)`
and whose direction and register number are the tuple's; and an instruction's tuple has `CRm = 0b01:m[1:0]`. -/
def Obligations.TupleNamesInstruction : Prop :=
  (∀ (a : SysregAccess) (i : Instr),
    decodeAccess a = .instr i ↔
      a.op0 = 0b10#2 ∧ a.op1 = 0b001#3 ∧ a.crn = 0b0000#4 ∧ a.crm.toNat / 4 = 1 ∧ a.op2 = 0b101#3 ∧
        i.direction = a.direction ∧ i.index.val = a.crm.toNat % 4 ∧ i.reg = a.t) ∧
    ∀ i : Instr, i.access.crm.toNat = 4 + i.index.val

/-- 95_test_vectors.md section 2.1: words written out from R61 and R64, one for each row of the table, and words that name
another register or no register move. The word layout is the spec's K3 (log 13). -/
def Obligations.KnownWordsDecode : Prop :=
  decode 0b11010101001100010000010010100000#32 = .instr (.mrsTrccntctlr0 0) ∧
  decode 0b11010101001100010000010110100000#32 = .instr (.mrsTrccntctlr1 0) ∧
  decode 0b11010101001100010000011010100101#32 = .instr (.mrsTrccntctlr2 5) ∧
  decode 0b11010101001100010000011110111110#32 = .instr (.mrsTrccntctlr3 30) ∧
  decode 0b11010101000100010000010010100000#32 = .instr (.msrTrccntctlr0 0) ∧
  decode 0b11010101000100010000010110100011#32 = .instr (.msrTrccntctlr1 3) ∧
  decode 0b11010101000100010000011010111111#32 = .instr (.msrTrccntctlr2 31) ∧
  decode 0b11010101000100010000011110100000#32 = .instr (.msrTrccntctlr3 0) ∧
  decode 0b11010101001100010000010011000000#32 = .notThisRegister ∧
  decode 0b11010101001100010000100010100000#32 = .notThisRegister ∧
  decode 0b11010101001100000000010010100000#32 = .notThisRegister ∧
  decode 0b11010101001110010000010010100000#32 = .notThisRegister ∧
  decode 0b11010101001100010001010010100000#32 = .notThisRegister ∧
  decode 0b11010101000000010000010010100000#32 = .notThisRegister

/-! ## Steps of the PE -/

/-- 70_reset_and_hazards.md section 5 (D28, D33; log 12, 14): when the PE runs, the word listed at the pc decodes to i, and
the next turn is the PE's (none scheduled, or a PE turn, which is used up), the step is exec of i. -/
def Obligations.StepRunsDecodedInstruction : Prop :=
  ∀ (s : State) (w : InstrWord) (i : Instr),
    s.pe = .running → fetchWord s.program s.pc = some w → decode w = .instr i →
      (s.schedule = [] → step s = exec i s) ∧
        ∀ rest, s.schedule = .pe :: rest → step s = exec i { s with schedule := rest }

/-- 70_reset_and_hazards.md section 5 (D33; log 12): in a well-formed program the word fetched at `base + 4 * k` is word k
of the list, and there is none at `base + 4 * length` or at an address that is not a multiple of 4. -/
def Obligations.FetchReadsTheListedWord : Prop :=
  ∀ p : Program, p.wellFormed = true →
    (∀ k w, p.words[k]? = some w → fetchWord p (BitVec.ofNat 64 (p.base.toNat + 4 * k)) = some w) ∧
      fetchWord p (BitVec.ofNat 64 (p.base.toNat + 4 * p.words.length)) = none ∧
        ∀ pc : Word, pc.toNat % 4 ≠ 0 → fetchWord p pc = none

/-- 30_encoding.md section 3, 60_exceptions.md section 9 (D1, D7; log 13, 15): a PE turn on a word that is none of the eight
accesses is refused, and answers neither UNDEFINED nor a next state; the history it answers with records the refusal. -/
def Obligations.StepRefusesOtherWords : Prop :=
  ∀ (s : State) (w : InstrWord),
    (s.schedule = [] ∨ s.schedule.head? = some .pe) → s.pe = .running → fetchWord s.program s.pc = some w →
      (∀ i, w &&& 0xFFFFFFE0#32 ≠ matchWord i) →
        step s = .refused (.notThisRegister (s.history ++ [.refused .notThisRegister]))

/-- 60_exceptions.md section 4 (D24, U14; log 11): a stopped PE has no step of its own; its turn is the fault `peStopped`. -/
def Obligations.StoppedPeHasNoStep : Prop :=
  ∀ (s : State) (e : Raised) (i : Instr), s.pe = .stopped e i →
    (s.schedule = [] ∨ s.schedule.head? = some .pe) → step s = .fault .peStopped

/-- 10_state.md section 5 (D11; log 4): no instruction is executed at `pc = 2^64 - 4`. -/
def Obligations.TopOfAddressSpaceRefused : Prop :=
  ∀ (i : Instr) (s : State), s.pc = 0xFFFF_FFFF_FFFF_FFFC#64 → exec i s = .refused .pcAtTop

/-! ## The access procedure -/

/-- 60_exceptions.md section 1 (D11, D24; log 4, 10): every execution ends in exactly one outcome of the closed type: Ok with
the pc advanced by 4, `Undefined`, a trap to EL1, EL2 or EL3 with code 0x18, or `Halt(SoftwareAccess)`; the PE then runs
on, or is stopped with that outcome. -/
def Obligations.EveryAccessHasOneOutcome : Prop :=
  ∀ (i : Instr) (s : State), Runs s → ∃ t, exec i s = .next t ∧
    ((t.pe = .running ∧ t.pc = s.pc + 4#64) ∨ t.pe = .stopped .undefined i ∨
      (∃ g, t.pe = .stopped (.systemAccessTrap g 0x18) i) ∨ t.pe = .stopped (.halt .softwareAccess) i)

/-- R121: an instruction ends in `Undefined` exactly when the first true condition is one of U0 to U6. -/
def Obligations.UndefinedExactly : Prop :=
  ∀ (i : Instr) (s : State), Runs s →
    ((∃ t, exec i s = .next t ∧ t.pe = .stopped .undefined i) ↔
      ∃ c ∈ [Cause.u0, .u1, .u2, .u3, .u4, .u5, .u6], firstCause i s = some c)

/-- R122: an instruction ends in `SystemAccessTrap(target, code)` exactly when the code is 0x18 and the first true condition
is one of T1 to T7, with the target of that row. -/
def Obligations.SystemAccessTrapExactly : Prop :=
  ∀ (i : Instr) (s : State) (g : TrapTarget) (ec : Nat), Runs s →
    ((∃ t, exec i s = .next t ∧ t.pe = .stopped (.systemAccessTrap g ec) i) ↔
      ec = 0x18 ∧ ∃ c, firstCause i s = some c ∧
        (c, g) ∈ [(Cause.t1, TrapTarget.el1), (.t2, .el2), (.t3, .el2), (.t4, .el3), (.t5, .el2), (.t6, .el3), (.t7, .el3)])

/-- R123: an instruction ends in `Halt(SoftwareAccess)` exactly when the first true condition is the Halt test of its level;
it never does at EL0. -/
def Obligations.HaltExactly : Prop :=
  (∀ (i : Instr) (s : State), Runs s →
    ((∃ t, exec i s = .next t ∧ t.pe = .stopped (.halt .softwareAccess) i) ↔
      ∃ c ∈ [Cause.haltEl1, .haltEl2, .haltEl3], firstCause i s = some c)) ∧
    ∀ (i : Instr) (s t : State), Runs s → s.env.el = .el0 → exec i s = .next t →
      t.pe ≠ .stopped (.halt .softwareAccess) i

/-- R67: an access to an instance that is not implemented, or to any when the register is absent, is UNDEFINED at every level
and under every control. -/
def Obligations.AbsentInstanceIsUndefined : Prop :=
  ∀ (i : Instr) (s : State), s.pc ≠ 0xFFFF_FFFF_FFFF_FFFC#64 →
    (s.params.featEte = false ∨ s.params.sysregTraceAccess = false ∨ i.index.val ≥ s.params.numTraceCounters.val) →
      ∃ t, exec i s = .next t ∧ t.pe = .stopped .undefined i

/-- 60_exceptions.md sections 6 and 7: at EL0 every access is UNDEFINED before any control is read, so it neither reads nor
writes the register; nothing else changes but the history (log 10, 21). -/
def Obligations.El0NeverAccesses : Prop :=
  ∀ (i : Instr) (s : State), s.pc ≠ 0xFFFF_FFFF_FFFF_FFFC#64 → s.env.el = .el0 →
    exec i s = .next { s with pe := .stopped .undefined i, history := s.history ++ [.raised .undefined i] }

/-- 60_exceptions.md section 4 (D10, D24; log 10): a non-Ok outcome changes nothing but the PE's status and the history. -/
def Obligations.NonOkChangesNothing : Prop :=
  ∀ (i : Instr) (s : State), s.pc ≠ 0xFFFF_FFFF_FFFF_FFFC#64 → (firstCause i s).isSome →
    ∃ e, exec i s = .next { s with pe := .stopped e i, history := s.history ++ [.raised e i] }

/-- 40_mrs_msr.md sections 2 and 3, corner case (d): the fine-grained write bit does not matter to a read, nor the read bit to
a write, and neither matters at EL2 and EL3. -/
def Obligations.FineGrainedTrapsAreDirectional : Prop :=
  (∀ (i : Instr) (s : State) (b : Bool), i.direction = .mrs →
    firstCause i { s with env := { s.env with hdfgwtrEl2Trc := b } } = firstCause i s ∧
      ∀ t, exec i s = .next t →
        exec i { s with env := { s.env with hdfgwtrEl2Trc := b } } =
          .next { t with env := { s.env with hdfgwtrEl2Trc := b } }) ∧
  (∀ (i : Instr) (s : State) (b : Bool), i.direction = .msr →
    ∀ t, exec i s = .next t →
      exec i { s with env := { s.env with hdfgrtrEl2Trc := b } } =
        .next { t with env := { s.env with hdfgrtrEl2Trc := b } }) ∧
  ∀ (i : Instr) (s : State) (b c : Bool), s.env.el = .el2 ∨ s.env.el = .el3 →
    ∀ t, exec i s = .next t →
      exec i { s with env := { s.env with hdfgrtrEl2Trc := b, hdfgwtrEl2Trc := c } } =
        .next { t with env := { s.env with hdfgrtrEl2Trc := b, hdfgwtrEl2Trc := c } }

/-- 60_exceptions.md section 9 (K6; log 10): while the PE is stopped by a trap of its access, the syndrome reported is
`0x622A4008 + 2*m + 32*t + Direction`, Direction 1 for a read. -/
def Obligations.TrapSyndromeValue : Prop :=
  ∀ (i : Instr) (s t : State) (g : TrapTarget), Runs s → exec i s = .next t →
    t.pe = .stopped (.systemAccessTrap g 0x18) i →
      reportedSyndrome t = some (BitVec.ofNat 64
        (0x622A4008 + 2 * i.index.val + 32 * i.reg.val + if i.direction = .mrs then 1 else 0))

/-! ## MRS -/

/-- R83: `MRS` of TRCCNTCTLR0 to 3, when permitted, completes, and the general register (one of X0 to X30) holds all 64 bits
of the register, which the read leaves as it was. -/
def Obligations.MrsCopiesTheRegister : Prop :=
  ∀ (i : Instr) (s : State), i.direction = .mrs → Permitted i s →
    ∃ t, exec i s = .next t ∧ (∀ h : i.reg.val < 31, t.x[i.reg.val] = s.trccntctlr[i.index]) ∧
      t.trccntctlr = s.trccntctlr

/-- 40_mrs_msr.md sections 2 and 4 (D11, D12, D16; log 3, 4, 21): the whole next state of a permitted `MRS` of TRCCNTCTLR0 to
3: the general register, the pc and the history, and nothing else; number 31 discards the value. -/
def Obligations.MrsNextState : Prop :=
  ∀ (i : Instr) (s : State), i.direction = .mrs → Permitted i s →
    exec i s = .next
      { s with
        x := if h : i.reg.val < 31 then s.x.set i.reg.val s.trccntctlr[i.index] else s.x
        pc := s.pc + 4#64
        history := s.history ++ [.sysRead i.index s.trccntctlr[i.index]] }

/-- 40_mrs_msr.md sections 2 and 4, 60_exceptions.md section 4 (D10, D24; log 10): the frame of every `MRS` that answers a next
state, completed or not: every general register but the destination, the register array, the records, the counters, the
inputs, the parameters, the program and the schedule are unchanged. That a non-Ok outcome changes nothing of these is
log 10. -/
def Obligations.MrsFrame : Prop :=
  ∀ (i : Instr) (s t : State), i.direction = .mrs → exec i s = .next t →
    (∀ k : Fin 31, k.val ≠ i.reg.val → t.x[k] = s.x[k]) ∧ t.trccntctlr = s.trccntctlr ∧ t.programmed = s.programmed ∧
      t.cuWriteNotIdle = s.cuWriteNotIdle ∧ t.counterState = s.counterState ∧ t.counterEvents = s.counterEvents ∧
      t.env = s.env ∧ t.params = s.params ∧ t.draws = s.draws ∧ t.program = s.program ∧ t.schedule = s.schedule

/-! ## MSR -/

/-- R84: `MSR` of TRCCNTCTLR0 to 3, when permitted, completes whether or not the trace unit is Idle, and does to the register
array and its records what `WriteReg(m, x[t])` does, with all 64 bits of the general register presented. -/
def Obligations.MsrPresentsAllBits : Prop :=
  ∀ (i : Instr) (s : State), i.direction = .msr → Permitted i s →
    ∃ t, exec i s = .next t ∧ t.trccntctlr = (writeReg i.index (source i s) s).trccntctlr ∧
      t.programmed = (writeReg i.index (source i s) s).programmed ∧
      t.cuWriteNotIdle = (writeReg i.index (source i s) s).cuWriteNotIdle

/-- 40_mrs_msr.md sections 3 and 4, 10_state.md section 3 (D3, D11, D12, D16, K1; log 3, 4, 7, 8, 21, 26): the whole next state of a
permitted `MSR` of TRCCNTCTLR0 to 3 while the trace unit is Idle; number 31 writes zero. -/
def Obligations.MsrIdleNextState : Prop :=
  ∀ (i : Instr) (s : State), i.direction = .msr → Permitted i s → s.env.traceUnitIdle = true →
    exec i s = .next
      { s with
        trccntctlr := s.trccntctlr.set i.index (kept i.index (source i s) s)
        programmed := s.programmed.set i.index true
        pc := s.pc + 4#64
        history := s.history ++ [.sysWrite i.index (source i s) true] }

/-- 10_state.md section 5, 70_reset_and_hazards.md section 3 (D7, K1; log 6, 7, 9): a permitted `MSR` of TRCCNTCTLR0 to 3 while the
trace unit is not Idle still completes, records `CU_WriteNotIdle(m)`, and leaves a free value in the register, whatever
the general register held; the statement holds for every value of `Config.freeBits`. -/
def Obligations.MsrNotIdleNextState : Prop :=
  ∀ (i : Instr) (s : State), i.direction = .msr → Permitted i s → s.env.traceUnitIdle = false →
    exec i s = .next
      { s with
        trccntctlr := s.trccntctlr.set i.index (kept i.index (Config.freeBits s.draws) s)
        cuWriteNotIdle := s.cuWriteNotIdle.set i.index true
        draws := s.draws + 1
        pc := s.pc + 4#64
        history := s.history ++ [.sysWrite i.index (source i s) false] }

/-- 40_mrs_msr.md sections 3 and 4, 10_state.md section 5, 60_exceptions.md section 4 (D7, D10, D24; log 9, 10): the frame of
every `MSR` that answers a next state, completed or not, Idle or not: every general register, every other instance with
its records, the counters, the inputs, the parameters, the program and the schedule are unchanged. That a write while not
Idle leaves the other instances and the counters as they are is the model's choice of log 9, since the spec confines its
unpredictability to the register content and the counter; that a non-Ok outcome changes nothing of these is log 10. -/
def Obligations.MsrFrame : Prop :=
  ∀ (i : Instr) (s t : State), i.direction = .msr → exec i s = .next t →
    t.x = s.x ∧
      (∀ k : CounterIndex, k ≠ i.index → t.trccntctlr[k] = s.trccntctlr[k] ∧ t.programmed[k] = s.programmed[k] ∧
        t.cuWriteNotIdle[k] = s.cuWriteNotIdle[k]) ∧
      t.counterState = s.counterState ∧ t.counterEvents = s.counterEvents ∧ t.env = s.env ∧ t.params = s.params ∧
      t.program = s.program ∧ t.schedule = s.schedule

/-! ## The external view -/

/-- 10_state.md section 4, 20_memory.md section 1 (D3, D16, D29, K1; log 7, 8, 16, 22): the two views read and write the same value.
After a permitted `MSR` of an implemented instance while Idle, the next external read returns the low 32 bits of what the
register holds; after an external write while Idle, a permitted `MRS` of that instance reads a value whose low 32 bits
are those of the value written, as kept, and whose upper 32 bits are the old ones, as kept. -/
def Obligations.ViewsShareTheRegister : Prop :=
  (∀ (i : Instr) (s : State), i.direction = .msr → Permitted i s → s.env.traceUnitIdle = true →
    s.env.extAccessAllowed = true →
      ∃ t, exec i s = .next t ∧ (extRead i.index t).history = t.history ++ [.extRead i.index ((kept i.index (source i s) s).extractLsb' 0 32)]) ∧
  ∀ (i : Instr) (s : State) (w : ExtWord) (h : i.reg.val < 31), i.direction = .mrs → Permitted i s →
    s.env.traceUnitIdle = true → s.env.extAccessAllowed = true →
      ∃ u, exec i (extWrite i.index w s) = .next u ∧
        u.x[i.reg.val] = kept i.index (s.trccntctlr[i.index].extractLsb' 32 32 ++ w) s

/-- 20_memory.md section 1 (D16, D18, D26; log 15, 16, 21): an allowed external read of an implemented instance returns the
low 32 bits of the register, in the history, and changes nothing else. -/
def Obligations.ExtReadNextState : Prop :=
  ∀ (n : CounterIndex) (s : State) (rest : List Turn), s.schedule = .debugger (.read n) :: rest →
    s.env.extAccessAllowed = true → s.params.featEte = true → n.val < s.params.numTraceCounters.val →
      step s = .next
        { s with
          schedule := rest
          history := s.history ++ [.extRead n (s.trccntctlr[n].extractLsb' 0 32)] }

/-- 20_memory.md section 1, 10_state.md section 5 (D7, D16, D18, D26, D29, K1; log 6, 7, 8, 9, 15, 16): an allowed external
write of an implemented instance keeps the upper word and writes the lower one through `WriteReg`: while Idle it stores and sets
`Programmed(n)`, else it records the model fault and leaves a free value. -/
def Obligations.ExtWriteNextState : Prop :=
  ∀ (n : CounterIndex) (w : ExtWord) (s : State) (rest : List Turn), s.schedule = .debugger (.write n w) :: rest →
    s.env.extAccessAllowed = true → s.params.featEte = true → n.val < s.params.numTraceCounters.val →
      (s.env.traceUnitIdle = true → step s = .next
        { s with
          schedule := rest
          trccntctlr := s.trccntctlr.set n (kept n (s.trccntctlr[n].extractLsb' 32 32 ++ w) s)
          programmed := s.programmed.set n true
          history := s.history ++ [.extWrite n w true] }) ∧
      (s.env.traceUnitIdle = false → step s = .next
        { s with
          schedule := rest
          trccntctlr := s.trccntctlr.set n (kept n (Config.freeBits s.draws) s)
          cuWriteNotIdle := s.cuWriteNotIdle.set n true
          draws := s.draws + 1
          history := s.history ++ [.extWrite n w false] })

/-- 20_memory.md sections 1 and 2, 60_exceptions.md section 9 (D7, D14, D18, D26; log 15): every external access is refused
while external access is not allowed; one of an instance that is not implemented is refused; and so is a bus access that
is not four bytes wide, not aligned, or at no `EXT_OFFSET(n)`. A refusal is recorded in the history, and nothing else
happens. -/
def Obligations.ExternalAccessRefusals : Prop :=
  ∀ (s : State) (a : ExtAccess) (rest : List Turn), s.schedule = .debugger a :: rest →
    (s.env.extAccessAllowed = false →
      step s = .next { s with schedule := rest, history := s.history ++ [.refused .extAccessNotAllowed] }) ∧
    (s.env.extAccessAllowed = true → (∃ n : CounterIndex, (a = .read n ∨ ∃ w, a = .write n w) ∧
        (s.params.featEte = false ∨ s.params.numTraceCounters.val ≤ n.val)) →
      step s = .next { s with schedule := rest, history := s.history ++ [.refused .extNotImplemented] }) ∧
    (s.env.extAccessAllowed = true → (∃ off bytes data, a = .bus off bytes data ∧
        (bytes ≠ 4 ∨ off.toNat % 4 ≠ 0 ∨ ∀ n : CounterIndex, s.params.extOffset[n] ≠ off)) →
      step s = .next { s with schedule := rest, history := s.history ++ [.refused .extMalformed] })

/-- 20_memory.md section 2 (D14; log 1, 15): a bus access of four bytes at an aligned `EXT_OFFSET(n)` is `ExtRead(n)` or
`ExtWrite(n, w)`, with their refusals; of equal offsets the lowest instance answers. -/
def Obligations.AlignedBusAccessReachesTheRegister : Prop :=
  ∀ (s : State) (n : CounterIndex) (off : Word), s.params.extOffset[n] = off → off.toNat % 4 = 0 →
    (∀ m : CounterIndex, m.val < n.val → s.params.extOffset[m] ≠ off) →
      externalAccess (.bus off 4 none) s = externalAccess (.read n) s ∧
        ∀ w, externalAccess (.bus off 4 (some w)) s = externalAccess (.write n w) s

/-- 20_memory.md section 3, 70_reset_and_hazards.md section 3 (D16, K1; log 7, 22): the PE and the debugger both write one instance
while Idle; whichever comes second decides the low word, and no other value can result. -/
def Obligations.TwoWritersOneValueRemains : Prop :=
  ∀ (i : Instr) (w : ExtWord) (s : State), i.direction = .msr → Permitted i s → s.env.traceUnitIdle = true →
    s.env.extAccessAllowed = true →
      (∃ t, exec i s = .next t ∧
        extValue i.index (extWrite i.index w t) = (kept i.index (0#32 ++ w) s).extractLsb' 0 32) ∧
      ∃ u, exec i (extWrite i.index w s) = .next u ∧
        extValue i.index u = (kept i.index (source i s) s).extractLsb' 0 32

/-! ## The trace unit -/

/-- R104 and R105: at a `TraceUnit` step, for every implemented n, the event that CNTEVENT(n) selects, and it alone, decrements
Counter n by event when it is active, and the one that RLDEVENT(n) selects, and it alone, causes a reload event by event;
each then counts as a decrement and as a reload of Counter n. -/
def Obligations.SelectedEventsCount : Prop :=
  ∀ (s : State) (rest : List Turn) (n : CounterIndex), s.schedule = .traceUnit :: rest → s.params.featEte = true →
    n.val < s.params.numTraceCounters.val →
      ∃ t, step s = .next t ∧
        t.counterEvents[n].decrementByEvent =
          eventActive s.params s.env (cnteventDraw s n) (cntevent s.trccntctlr[n]) ∧
        t.counterEvents[n].reloadByEvent =
          eventActive s.params s.env (rldeventDraw s n) (rldevent s.trccntctlr[n]) ∧
        (t.counterEvents[n].decrementByEvent = true → t.counterEvents[n].decrement = true) ∧
        (t.counterEvents[n].reloadByEvent = true → t.counterEvents[n].reload = true)

/-- 41_counter_control_effects.md section 1 (D2, D4, K1; log 7, 24): which input an implemented selector reads, from the bits
of the register: TYPE 0 reads `RS(SEL[4:0])`, TYPE 1 with a non-zero SEL[3:0] reads `RSPair(SEL[3:0])`, whatever SEL[4]
is; for CNTEVENT (bits 7, 4:0) and for RLDEVENT (bits 15, 12:8). -/
def Obligations.ImplementedSelectorReadsItsInput : Prop :=
  ∀ (s : State) (n : CounterIndex) (r : Word), s.trccntctlr[n] = r → s.params.featEte = true →
    n.val < s.params.numTraceCounters.val →
      (∀ j : Fin 32, r.getLsbD 7 = false → j.val = r.toNat % 32 → s.params.rsImplemented[j] = true →
        decrementByEvent s n = s.env.rs[j]) ∧
      (∀ k : Fin 16, r.getLsbD 7 = true → k.val = r.toNat % 16 → k ≠ 0 → s.params.rsPairImplemented[k] = true →
        decrementByEvent s n = s.env.rsPair[k]) ∧
      (∀ j : Fin 32, r.getLsbD 15 = false → j.val = r.toNat / 256 % 32 → s.params.rsImplemented[j] = true →
        reloadByEvent s n = s.env.rs[j]) ∧
      ∀ k : Fin 16, r.getLsbD 15 = true → k.val = r.toNat / 256 % 16 → k ≠ 0 → s.params.rsPairImplemented[k] = true →
        reloadByEvent s n = s.env.rsPair[k]

/-- 10_state.md sections 1 and 2 (D2, D5, K1; log 7, 24): CNTCHAIN is bit 17 of instances 1 and 3 and is 0 in instances 0 and 2
whatever that bit holds; RLDSELF is bit 16 of every instance. With ChainFollowsTheReloadBelow this says which bit chains. -/
def Obligations.ChainAndSelfReloadBits : Prop :=
  ∀ (n : CounterIndex) (r : Word), cntchain n r = (n.val % 2 == 1 && r.getLsbD 17) ∧ rldself r = r.getLsbD 16

/-- 41_counter_control_effects.md section 1 (D8, D22; log 6, 17): an unimplemented selector, an unimplemented pair, or pair 0:
while the resources are Paused the event is the input `PausedFire`, else it is a free Boolean of that event at that step;
the statement holds for every value of `Config.freeBool`. -/
def Obligations.UnpredictableSelectorIsBounded : Prop :=
  ∀ (p : Params) (e : Env) (free : Bool) (sel : Selector),
    (match sel with
      | .single i => p.rsImplemented[i] = false
      | .pair k => k = 0 ∨ p.rsPairImplemented[k] = false) →
      (e.resourcesPaused = true → eventActive p e free sel = e.pausedFire) ∧
        (e.resourcesPaused = false → eventActive p e free sel = free)

/-- 41_counter_control_effects.md section 2 (D20, K1; log 7, 18): with RLDSELF(n), bit 16, 0 no self-reload of Counter n occurs;
with it 1 one occurs exactly when `CounterModel` says that the counter reaches zero, told what the step does: an even
counter's is settled with no chain input, an odd one's with the chain inputs, which is the model's choice of log 18; for every
implemented n and every `CounterModel`. -/
def Obligations.SelfReloadOnlyInSelfReloadMode : Prop :=
  ∀ (M : CounterModel) (s : State) (n : CounterIndex), s.params.featEte = true →
    n.val < s.params.numTraceCounters.val →
      (s.trccntctlr[n].getLsbD 16 = false → (traceUnitStepWith M s).counterEvents[n].reloadBySelf = false) ∧
      (s.trccntctlr[n].getLsbD 16 = true → (traceUnitStepWith M s).counterEvents[n].reloadBySelf =
        M.reachesZero s.counterState
          (counterInputs s (if n.val % 2 = 0 then noChain else decrementByChain M s)) n)

/-- R107: for n = 1 and 3, with CNTCHAIN(n) 1 every reload of Counter n-1, from whichever cause, decrements Counter n by chain,
and with CNTCHAIN(n) 0 none does; for every implemented n and every `CounterModel`. -/
def Obligations.ChainFollowsTheReloadBelow : Prop :=
  ∀ (M : CounterModel) (s t : State), s.params.featEte = true → t = traceUnitStepWith M s →
    (1 < s.params.numTraceCounters.val →
      t.counterEvents[1].decrementByChain = (cntchain 1 s.trccntctlr[1] && t.counterEvents[0].reload)) ∧
    (3 < s.params.numTraceCounters.val →
      t.counterEvents[3].decrementByChain = (cntchain 3 s.trccntctlr[3] && t.counterEvents[2].reload))

/-- 41_counter_control_effects.md section 2 (D5; log 24): no reload decrements Counter 0 or Counter 2, whatever bit 17 holds;
and a counter that is not implemented has no event. -/
def Obligations.EvenCountersHaveNoChain : Prop :=
  ∀ (M : CounterModel) (s : State) (n : CounterIndex),
    (n = 0 ∨ n = 2 → (traceUnitStepWith M s).counterEvents[n].decrementByChain = false) ∧
      (s.params.featEte = false ∨ s.params.numTraceCounters.val ≤ n.val →
        (traceUnitStepWith M s).counterEvents[n] = ⟨false, false, false, false⟩)

/-- 10_state.md section 3, 41_counter_control_effects.md section 2 (D2, D3, D5, K1; log 7, 8): a RES0 bit of the register array
has no effect on the counters: two arrays that agree on bits 17 (instances 1 and 3), 16, 15, 12:8, 7 and 4:0 give the
same events and the same counter state. -/
def Obligations.Res0BitsHaveNoEffect : Prop :=
  ∀ (M : CounterModel) (s : State) (r : Vector Word 4),
    (∀ n : CounterIndex, r[n] &&& fieldBits n = s.trccntctlr[n] &&& fieldBits n) →
      traceUnitStepWith M { s with trccntctlr := r } = { traceUnitStepWith M s with trccntctlr := r }

/-- 41_counter_control_effects.md section 3 (D20, K1; log 7, 17, 18): a `TraceUnit` step writes no register. It records the
events of each counter, steps `CounterModel` with those events and bit 16 (RLDSELF) of the implemented counters, uses up eight free
values, and changes nothing else. -/
def Obligations.TraceUnitFrame : Prop :=
  ∀ (s : State) (rest : List Turn), s.schedule = .traceUnit :: rest →
    ∃ events : Vector CounterEvents 4, step s = .next
      { s with
        schedule := rest
        counterEvents := events
        counterState := Config.counterModel.next s.counterState (Vector.ofFn fun n =>
          { decrementByEvent := events[n].decrementByEvent
            decrementByChain := events[n].decrementByChain
            reloadByEvent := events[n].reloadByEvent
            rldself := s.params.featEte && decide (n.val < s.params.numTraceCounters.val) &&
              s.trccntctlr[n].getLsbD 16 })
        draws := s.draws + 8 }

/-! ## Reset, resumption, the environment -/

/-- 10_state.md section 4, 70_reset_and_hazards.md section 1 (D6, D27, K1; log 6, 7, 18, 19): after a `Reset` turn every
instance holds a free draw with RES0 bits 0 when hardwired, the counter state is a free draw, `Programmed` is false everywhere,
recorded model faults are kept, and what the hardware does not own is what the environment makes it; it holds for every
value of the free values. -/
def Obligations.ResetTurnNextState : Prop :=
  ∀ (s : State) (u : Unowned) (rest : List Turn), s.schedule = .reset u :: rest →
    ∃ t, step s = .next t ∧ HardwiredBitsAreZero t ∧
      (∀ n : CounterIndex, t.trccntctlr[n] = kept n (Config.freeBits (s.draws + n.val)) s ∧ t.programmed[n] = false) ∧
      t.counterState = Config.freeCounterState s.draws ∧ t.draws = s.draws + 4 ∧
      t.cuWriteNotIdle = s.cuWriteNotIdle ∧ t.params = s.params ∧ t.program = s.program ∧ t.pe = s.pe ∧
      t.counterEvents = s.counterEvents ∧ t.x = u.x ∧ t.pc = u.pc ∧ t.env = u.env ∧ t.schedule = rest ∧
      t.history = s.history ++ [.reset]

/-- 60_exceptions.md section 4 (D24; log 20): the environment resumes a stopped PE at any pc with any inputs, and nothing this
hardware owns changes; a PE that runs cannot be resumed. -/
def Obligations.ResumptionRestarts : Prop :=
  ∀ (s : State) (u : Unowned) (rest : List Turn), s.schedule = .resume u :: rest →
    (s.pe ≠ .running →
      step s = .next { s with schedule := rest, x := u.x, pc := u.pc, env := u.env, pe := .running }) ∧
    (s.pe = .running → step s = .refused .resumeNotStopped)

/-- 70_reset_and_hazards.md section 5 (D9; log 2): the environment may change every input between two steps, and changes
nothing else. -/
def Obligations.EnvironmentChangesInputsOnly : Prop :=
  ∀ (s : State) (e : Env) (rest : List Turn), s.schedule = .environment e :: rest →
    step s = .next { s with schedule := rest, env := e }

/-- The state right after power-on. The spec gives `Programmed` false and RES0 bits 0 when hardwired (R24, D6); every other
value is the model's choice, log 1 to 5, 9, 10 and 12. -/
def Obligations.PowerOnState : Prop :=
  (∀ n : CounterIndex, State.reset.programmed[n] = false ∧ State.reset.trccntctlr[n] = 0#64) ∧
    State.reset.noModelFault ∧ State.reset.pe = .running ∧ State.reset.pc = 0#64 ∧
    (∀ k : Fin 31, State.reset.x[k] = 0#64) ∧ step State.reset = .refused .runEnded

/-! ## Rules of the whole machine -/

/-- 10_state.md section 3 (derived there; D2, D3, K1, log 7, 8): the invariant of hardwired RES0 bits is kept by every step. -/
def Obligations.Res0ClearIsKept : Prop :=
  ∀ s t : State, HardwiredBitsAreZero s → step s = .next t → HardwiredBitsAreZero t

/-- 10_state.md section 3 (D2, D3, K1, log 5, 7, 8): the invariant of hardwired RES0 bits holds at State.reset. -/
def Obligations.Res0ClearAtReset : Prop :=
  HardwiredBitsAreZero State.reset

/-- 10_state.md sections 4 and 5, 60_exceptions.md section 9 (D7; log 9): a recorded model fault is never cleared, by any turn
of any agent, a reset among them. -/
def Obligations.ModelFaultIsNeverCleared : Prop :=
  ∀ (s t : State) (n : CounterIndex), step s = .next t → s.cuWriteNotIdle[n] = true → t.cuWriteNotIdle[n] = true

/-- 41_counter_control_effects.md section 3 (derived there): an instance changes only by an `MSR` of it that the PE completes, an
external write to it, or a reset. -/
def Obligations.RegisterChangesOnlyByWritesAndReset : Prop :=
  ∀ (s t : State) (n : CounterIndex), step s = .next t → t.trccntctlr[n] ≠ s.trccntctlr[n] →
    ((s.schedule = [] ∨ s.schedule.head? = some .pe) ∧ s.pe = .running ∧
      ∃ w i, fetchWord s.program s.pc = some w ∧ decode w = .instr i ∧ i.direction = .msr ∧ i.index = n ∧
        Permitted i s) ∨
    (∃ a, s.schedule.head? = some (.debugger a) ∧ s.env.extAccessAllowed = true ∧ writesTo a n s) ∨
    ∃ u, s.schedule.head? = some (.reset u)

/-- 41_counter_control_effects.md section 2 (D19; log 26): `Programmed(n)` is set only by a write to instance n made while the
trace unit is Idle, which is in the history of the step. -/
def Obligations.ProgrammedOnlyByPredictableWrites : Prop :=
  ∀ (s t : State) (n : CounterIndex), step s = .next t → s.programmed[n] = false → t.programmed[n] = true →
    s.env.traceUnitIdle = true ∧
      ((∃ v, t.history = s.history ++ [.sysWrite n v true]) ∨ ∃ w, t.history = s.history ++ [.extWrite n w true])

/-- 70_reset_and_hazards.md section 5 (D9, D28; log 1, 12): no step changes a parameter of the implementation or the
program. -/
def Obligations.ParametersAndProgramAreFixed : Prop :=
  ∀ s t : State, step s = .next t → t.params = s.params ∧ t.program = s.program

/-- 20_memory.md section 3 (D16; log 21): the event history only grows, and by at most one event a step. -/
def Obligations.HistoryOnlyGrows : Prop :=
  ∀ s t : State, step s = .next t → t.history = s.history ∨ ∃ e, t.history = s.history ++ [e]

/-! ## Runs -/

/-- 70_reset_and_hazards.md section 5 (D33; log 12): every run starts with a reset, and its program stays a list of the
eight accesses, at multiples of 4, that ends below 2^64. -/
def Obligations.RunsStartWithReset : Prop :=
  ∀ (done : List Word) (s : State), Run done s →
    s.history.head? = some .reset ∧ s.program.wellFormed = true ∧ programListed s.program

/-- 70_reset_and_hazards.md section 5, 60_exceptions.md section 9 (D7, D33; log 12, 15): once a run has a non-Ok outcome, a
recorded refusal or a recorded model fault, no step of any agent makes its state final. -/
def Obligations.BrokenRunIsNeverFinal : Prop :=
  ∀ s t : State, step s = .next t →
    ((∃ e i, Event.raised e i ∈ s.history) ∨ (∃ r, Event.refused r ∈ s.history) ∨
      ∃ n : CounterIndex, s.cuWriteNotIdle[n] = true) → ¬ t.final

/-- 70_reset_and_hazards.md section 5 (D33; log 12): when a clean run has completed every operation but the last, stands at the
last, and the PE moves next, a permitted access (while Idle, if it writes) ends the run in a final state. -/
def Obligations.LastOperationEndsTheRun : Prop :=
  ∀ (s : State) (done : List Word) (k : Nat) (w : InstrWord) (i : Instr), Run done s →
    s.program.words.length = k + 1 → s.pc = BitVec.ofNat 64 (s.program.base.toNat + 4 * k) →
    (∀ j < k, BitVec.ofNat 64 (s.program.base.toNat + 4 * j) ∈ done) →
    s.pe = .running → s.everyOutcomeOk → s.noRefusal → s.noModelFault →
    (s.schedule = [] ∨ s.schedule.head? = some .pe) → fetchWord s.program s.pc = some w → decode w = .instr i →
    Permitted i s → (i.direction = .msr → s.env.traceUnitIdle = true) →
      ∃ t, step s = .next t ∧ t.final

/-- 70_reset_and_hazards.md section 5 (D33; log 12): in a final state the PE has no operation left: its turn is refused as the
end of the run. -/
def Obligations.FinalStateHasNoOperationLeft : Prop :=
  ∀ s : State, s.final → (s.schedule = [] ∨ s.schedule.head? = some .pe) → step s = .refused .runEnded
end

