-- ==== Sys2Proof/Laws/State.lean ====
section
/-! SUPPORT. What each field is after each update: one lemma per field per update, so that no later proof unfolds a
record update. -/

namespace Sys2Proof.Machine

@[simp] theorem setProgrammed_params (n : CounterIndex) (s : State) : (setProgrammed n s).params = s.params := rfl
@[simp] theorem setProgrammed_env (n : CounterIndex) (s : State) : (setProgrammed n s).env = s.env := rfl
@[simp] theorem setProgrammed_x (n : CounterIndex) (s : State) : (setProgrammed n s).x = s.x := rfl
@[simp] theorem setProgrammed_pc (n : CounterIndex) (s : State) : (setProgrammed n s).pc = s.pc := rfl
@[simp] theorem setProgrammed_pe (n : CounterIndex) (s : State) : (setProgrammed n s).pe = s.pe := rfl
@[simp] theorem setProgrammed_trccntctlr (n : CounterIndex) (s : State) : (setProgrammed n s).trccntctlr = s.trccntctlr := rfl
@[simp] theorem setProgrammed_programmed (n : CounterIndex) (s : State) : (setProgrammed n s).programmed = s.programmed.set n true := rfl
@[simp] theorem setProgrammed_cuWriteNotIdle (n : CounterIndex) (s : State) : (setProgrammed n s).cuWriteNotIdle = s.cuWriteNotIdle := rfl
@[simp] theorem setProgrammed_counterState (n : CounterIndex) (s : State) : (setProgrammed n s).counterState = s.counterState := rfl
@[simp] theorem setProgrammed_counterEvents (n : CounterIndex) (s : State) : (setProgrammed n s).counterEvents = s.counterEvents := rfl
@[simp] theorem setProgrammed_history (n : CounterIndex) (s : State) : (setProgrammed n s).history = s.history := rfl
@[simp] theorem setProgrammed_draws (n : CounterIndex) (s : State) : (setProgrammed n s).draws = s.draws := rfl
@[simp] theorem setProgrammed_program (n : CounterIndex) (s : State) : (setProgrammed n s).program = s.program := rfl
@[simp] theorem setProgrammed_schedule (n : CounterIndex) (s : State) : (setProgrammed n s).schedule = s.schedule := rfl

@[simp] theorem clearProgrammed_params (s : State) : (clearProgrammed s).params = s.params := rfl
@[simp] theorem clearProgrammed_env (s : State) : (clearProgrammed s).env = s.env := rfl
@[simp] theorem clearProgrammed_x (s : State) : (clearProgrammed s).x = s.x := rfl
@[simp] theorem clearProgrammed_pc (s : State) : (clearProgrammed s).pc = s.pc := rfl
@[simp] theorem clearProgrammed_pe (s : State) : (clearProgrammed s).pe = s.pe := rfl
@[simp] theorem clearProgrammed_trccntctlr (s : State) : (clearProgrammed s).trccntctlr = s.trccntctlr := rfl
@[simp] theorem clearProgrammed_programmed (s : State) : (clearProgrammed s).programmed = Vector.replicate 4 false := rfl
@[simp] theorem clearProgrammed_cuWriteNotIdle (s : State) : (clearProgrammed s).cuWriteNotIdle = s.cuWriteNotIdle := rfl
@[simp] theorem clearProgrammed_counterState (s : State) : (clearProgrammed s).counterState = s.counterState := rfl
@[simp] theorem clearProgrammed_counterEvents (s : State) : (clearProgrammed s).counterEvents = s.counterEvents := rfl
@[simp] theorem clearProgrammed_history (s : State) : (clearProgrammed s).history = s.history := rfl
@[simp] theorem clearProgrammed_draws (s : State) : (clearProgrammed s).draws = s.draws := rfl
@[simp] theorem clearProgrammed_program (s : State) : (clearProgrammed s).program = s.program := rfl
@[simp] theorem clearProgrammed_schedule (s : State) : (clearProgrammed s).schedule = s.schedule := rfl

@[simp] theorem recordWriteNotIdle_params (n : CounterIndex) (s : State) : (recordWriteNotIdle n s).params = s.params := rfl
@[simp] theorem recordWriteNotIdle_env (n : CounterIndex) (s : State) : (recordWriteNotIdle n s).env = s.env := rfl
@[simp] theorem recordWriteNotIdle_x (n : CounterIndex) (s : State) : (recordWriteNotIdle n s).x = s.x := rfl
@[simp] theorem recordWriteNotIdle_pc (n : CounterIndex) (s : State) : (recordWriteNotIdle n s).pc = s.pc := rfl
@[simp] theorem recordWriteNotIdle_pe (n : CounterIndex) (s : State) : (recordWriteNotIdle n s).pe = s.pe := rfl
@[simp] theorem recordWriteNotIdle_trccntctlr (n : CounterIndex) (s : State) : (recordWriteNotIdle n s).trccntctlr = s.trccntctlr := rfl
@[simp] theorem recordWriteNotIdle_programmed (n : CounterIndex) (s : State) : (recordWriteNotIdle n s).programmed = s.programmed := rfl
@[simp] theorem recordWriteNotIdle_cuWriteNotIdle (n : CounterIndex) (s : State) : (recordWriteNotIdle n s).cuWriteNotIdle = s.cuWriteNotIdle.set n true := rfl
@[simp] theorem recordWriteNotIdle_counterState (n : CounterIndex) (s : State) : (recordWriteNotIdle n s).counterState = s.counterState := rfl
@[simp] theorem recordWriteNotIdle_counterEvents (n : CounterIndex) (s : State) : (recordWriteNotIdle n s).counterEvents = s.counterEvents := rfl
@[simp] theorem recordWriteNotIdle_history (n : CounterIndex) (s : State) : (recordWriteNotIdle n s).history = s.history := rfl
@[simp] theorem recordWriteNotIdle_draws (n : CounterIndex) (s : State) : (recordWriteNotIdle n s).draws = s.draws := rfl
@[simp] theorem recordWriteNotIdle_program (n : CounterIndex) (s : State) : (recordWriteNotIdle n s).program = s.program := rfl
@[simp] theorem recordWriteNotIdle_schedule (n : CounterIndex) (s : State) : (recordWriteNotIdle n s).schedule = s.schedule := rfl

@[simp] theorem record_params (e : Event) (s : State) : (record e s).params = s.params := rfl
@[simp] theorem record_env (e : Event) (s : State) : (record e s).env = s.env := rfl
@[simp] theorem record_x (e : Event) (s : State) : (record e s).x = s.x := rfl
@[simp] theorem record_pc (e : Event) (s : State) : (record e s).pc = s.pc := rfl
@[simp] theorem record_pe (e : Event) (s : State) : (record e s).pe = s.pe := rfl
@[simp] theorem record_trccntctlr (e : Event) (s : State) : (record e s).trccntctlr = s.trccntctlr := rfl
@[simp] theorem record_programmed (e : Event) (s : State) : (record e s).programmed = s.programmed := rfl
@[simp] theorem record_cuWriteNotIdle (e : Event) (s : State) : (record e s).cuWriteNotIdle = s.cuWriteNotIdle := rfl
@[simp] theorem record_counterState (e : Event) (s : State) : (record e s).counterState = s.counterState := rfl
@[simp] theorem record_counterEvents (e : Event) (s : State) : (record e s).counterEvents = s.counterEvents := rfl
@[simp] theorem record_history (e : Event) (s : State) : (record e s).history = s.history ++ [e] := rfl
@[simp] theorem record_draws (e : Event) (s : State) : (record e s).draws = s.draws := rfl
@[simp] theorem record_program (e : Event) (s : State) : (record e s).program = s.program := rfl
@[simp] theorem record_schedule (e : Event) (s : State) : (record e s).schedule = s.schedule := rfl

@[simp] theorem recordRefusal_params (r : RefusedOperation) (s : State) : (recordRefusal r s).params = s.params := rfl
@[simp] theorem recordRefusal_env (r : RefusedOperation) (s : State) : (recordRefusal r s).env = s.env := rfl
@[simp] theorem recordRefusal_x (r : RefusedOperation) (s : State) : (recordRefusal r s).x = s.x := rfl
@[simp] theorem recordRefusal_pc (r : RefusedOperation) (s : State) : (recordRefusal r s).pc = s.pc := rfl
@[simp] theorem recordRefusal_pe (r : RefusedOperation) (s : State) : (recordRefusal r s).pe = s.pe := rfl
@[simp] theorem recordRefusal_trccntctlr (r : RefusedOperation) (s : State) : (recordRefusal r s).trccntctlr = s.trccntctlr := rfl
@[simp] theorem recordRefusal_programmed (r : RefusedOperation) (s : State) : (recordRefusal r s).programmed = s.programmed := rfl
@[simp] theorem recordRefusal_cuWriteNotIdle (r : RefusedOperation) (s : State) : (recordRefusal r s).cuWriteNotIdle = s.cuWriteNotIdle := rfl
@[simp] theorem recordRefusal_counterState (r : RefusedOperation) (s : State) : (recordRefusal r s).counterState = s.counterState := rfl
@[simp] theorem recordRefusal_counterEvents (r : RefusedOperation) (s : State) : (recordRefusal r s).counterEvents = s.counterEvents := rfl
@[simp] theorem recordRefusal_history (r : RefusedOperation) (s : State) : (recordRefusal r s).history = s.history ++ [.refused r] := rfl
@[simp] theorem recordRefusal_draws (r : RefusedOperation) (s : State) : (recordRefusal r s).draws = s.draws := rfl
@[simp] theorem recordRefusal_program (r : RefusedOperation) (s : State) : (recordRefusal r s).program = s.program := rfl
@[simp] theorem recordRefusal_schedule (r : RefusedOperation) (s : State) : (recordRefusal r s).schedule = s.schedule := rfl

@[simp] theorem storeReg_params (n : CounterIndex) (v : Word) (s : State) : (storeReg n v s).params = s.params := rfl
@[simp] theorem storeReg_env (n : CounterIndex) (v : Word) (s : State) : (storeReg n v s).env = s.env := rfl
@[simp] theorem storeReg_x (n : CounterIndex) (v : Word) (s : State) : (storeReg n v s).x = s.x := rfl
@[simp] theorem storeReg_pc (n : CounterIndex) (v : Word) (s : State) : (storeReg n v s).pc = s.pc := rfl
@[simp] theorem storeReg_pe (n : CounterIndex) (v : Word) (s : State) : (storeReg n v s).pe = s.pe := rfl
@[simp] theorem storeReg_trccntctlr (n : CounterIndex) (v : Word) (s : State) : (storeReg n v s).trccntctlr = s.trccntctlr.set n (keptBits s.params n v) := rfl
@[simp] theorem storeReg_programmed (n : CounterIndex) (v : Word) (s : State) : (storeReg n v s).programmed = s.programmed := rfl
@[simp] theorem storeReg_cuWriteNotIdle (n : CounterIndex) (v : Word) (s : State) : (storeReg n v s).cuWriteNotIdle = s.cuWriteNotIdle := rfl
@[simp] theorem storeReg_counterState (n : CounterIndex) (v : Word) (s : State) : (storeReg n v s).counterState = s.counterState := rfl
@[simp] theorem storeReg_counterEvents (n : CounterIndex) (v : Word) (s : State) : (storeReg n v s).counterEvents = s.counterEvents := rfl
@[simp] theorem storeReg_history (n : CounterIndex) (v : Word) (s : State) : (storeReg n v s).history = s.history := rfl
@[simp] theorem storeReg_draws (n : CounterIndex) (v : Word) (s : State) : (storeReg n v s).draws = s.draws := rfl
@[simp] theorem storeReg_program (n : CounterIndex) (v : Word) (s : State) : (storeReg n v s).program = s.program := rfl
@[simp] theorem storeReg_schedule (n : CounterIndex) (v : Word) (s : State) : (storeReg n v s).schedule = s.schedule := rfl

@[simp] theorem retire_params (s : State) : (retire s).params = s.params := rfl
@[simp] theorem retire_env (s : State) : (retire s).env = s.env := rfl
@[simp] theorem retire_x (s : State) : (retire s).x = s.x := rfl
@[simp] theorem retire_pc (s : State) : (retire s).pc = s.pc + 4#64 := rfl
@[simp] theorem retire_pe (s : State) : (retire s).pe = s.pe := rfl
@[simp] theorem retire_trccntctlr (s : State) : (retire s).trccntctlr = s.trccntctlr := rfl
@[simp] theorem retire_programmed (s : State) : (retire s).programmed = s.programmed := rfl
@[simp] theorem retire_cuWriteNotIdle (s : State) : (retire s).cuWriteNotIdle = s.cuWriteNotIdle := rfl
@[simp] theorem retire_counterState (s : State) : (retire s).counterState = s.counterState := rfl
@[simp] theorem retire_counterEvents (s : State) : (retire s).counterEvents = s.counterEvents := rfl
@[simp] theorem retire_history (s : State) : (retire s).history = s.history := rfl
@[simp] theorem retire_draws (s : State) : (retire s).draws = s.draws := rfl
@[simp] theorem retire_program (s : State) : (retire s).program = s.program := rfl
@[simp] theorem retire_schedule (s : State) : (retire s).schedule = s.schedule := rfl

@[simp] theorem takeException_params (e : Raised) (i : Instr) (s : State) : (takeException e i s).params = s.params := rfl
@[simp] theorem takeException_env (e : Raised) (i : Instr) (s : State) : (takeException e i s).env = s.env := rfl
@[simp] theorem takeException_x (e : Raised) (i : Instr) (s : State) : (takeException e i s).x = s.x := rfl
@[simp] theorem takeException_pc (e : Raised) (i : Instr) (s : State) : (takeException e i s).pc = s.pc := rfl
@[simp] theorem takeException_pe (e : Raised) (i : Instr) (s : State) : (takeException e i s).pe = .stopped e i := rfl
@[simp] theorem takeException_trccntctlr (e : Raised) (i : Instr) (s : State) : (takeException e i s).trccntctlr = s.trccntctlr := rfl
@[simp] theorem takeException_programmed (e : Raised) (i : Instr) (s : State) : (takeException e i s).programmed = s.programmed := rfl
@[simp] theorem takeException_cuWriteNotIdle (e : Raised) (i : Instr) (s : State) : (takeException e i s).cuWriteNotIdle = s.cuWriteNotIdle := rfl
@[simp] theorem takeException_counterState (e : Raised) (i : Instr) (s : State) : (takeException e i s).counterState = s.counterState := rfl
@[simp] theorem takeException_counterEvents (e : Raised) (i : Instr) (s : State) : (takeException e i s).counterEvents = s.counterEvents := rfl
@[simp] theorem takeException_history (e : Raised) (i : Instr) (s : State) : (takeException e i s).history = s.history ++ [.raised e i] := rfl
@[simp] theorem takeException_draws (e : Raised) (i : Instr) (s : State) : (takeException e i s).draws = s.draws := rfl
@[simp] theorem takeException_program (e : Raised) (i : Instr) (s : State) : (takeException e i s).program = s.program := rfl
@[simp] theorem takeException_schedule (e : Raised) (i : Instr) (s : State) : (takeException e i s).schedule = s.schedule := rfl

@[simp] theorem writeX_params (t : RegNum) (v : Word) (s : State) : (writeX t v s).params = s.params := by
  unfold writeX; split <;> rfl
@[simp] theorem writeX_env (t : RegNum) (v : Word) (s : State) : (writeX t v s).env = s.env := by
  unfold writeX; split <;> rfl
@[simp] theorem writeX_x (t : RegNum) (v : Word) (s : State) :
    (writeX t v s).x = if h : t.val < 31 then s.x.set t.val v else s.x := by
  unfold writeX; split <;> rfl
@[simp] theorem writeX_pc (t : RegNum) (v : Word) (s : State) : (writeX t v s).pc = s.pc := by
  unfold writeX; split <;> rfl
@[simp] theorem writeX_pe (t : RegNum) (v : Word) (s : State) : (writeX t v s).pe = s.pe := by
  unfold writeX; split <;> rfl
@[simp] theorem writeX_trccntctlr (t : RegNum) (v : Word) (s : State) : (writeX t v s).trccntctlr = s.trccntctlr := by
  unfold writeX; split <;> rfl
@[simp] theorem writeX_programmed (t : RegNum) (v : Word) (s : State) : (writeX t v s).programmed = s.programmed := by
  unfold writeX; split <;> rfl
@[simp] theorem writeX_cuWriteNotIdle (t : RegNum) (v : Word) (s : State) : (writeX t v s).cuWriteNotIdle = s.cuWriteNotIdle := by
  unfold writeX; split <;> rfl
@[simp] theorem writeX_counterState (t : RegNum) (v : Word) (s : State) : (writeX t v s).counterState = s.counterState := by
  unfold writeX; split <;> rfl
@[simp] theorem writeX_counterEvents (t : RegNum) (v : Word) (s : State) : (writeX t v s).counterEvents = s.counterEvents := by
  unfold writeX; split <;> rfl
@[simp] theorem writeX_history (t : RegNum) (v : Word) (s : State) : (writeX t v s).history = s.history := by
  unfold writeX; split <;> rfl
@[simp] theorem writeX_draws (t : RegNum) (v : Word) (s : State) : (writeX t v s).draws = s.draws := by
  unfold writeX; split <;> rfl
@[simp] theorem writeX_program (t : RegNum) (v : Word) (s : State) : (writeX t v s).program = s.program := by
  unfold writeX; split <;> rfl
@[simp] theorem writeX_schedule (t : RegNum) (v : Word) (s : State) : (writeX t v s).schedule = s.schedule := by
  unfold writeX; split <;> rfl

@[simp] theorem writeReg_params (n : CounterIndex) (v : Word) (s : State) :
    (writeReg n v s).params = s.params := by
  unfold writeReg; split <;> rfl
@[simp] theorem writeReg_env (n : CounterIndex) (v : Word) (s : State) :
    (writeReg n v s).env = s.env := by
  unfold writeReg; split <;> rfl
@[simp] theorem writeReg_x (n : CounterIndex) (v : Word) (s : State) :
    (writeReg n v s).x = s.x := by
  unfold writeReg; split <;> rfl
@[simp] theorem writeReg_pc (n : CounterIndex) (v : Word) (s : State) :
    (writeReg n v s).pc = s.pc := by
  unfold writeReg; split <;> rfl
@[simp] theorem writeReg_pe (n : CounterIndex) (v : Word) (s : State) :
    (writeReg n v s).pe = s.pe := by
  unfold writeReg; split <;> rfl
@[simp] theorem writeReg_trccntctlr (n : CounterIndex) (v : Word) (s : State) :
    (writeReg n v s).trccntctlr = s.trccntctlr.set n (keptBits s.params n (if s.env.traceUnitIdle then v else Config.freeBits s.draws)) := by
  unfold writeReg; split <;> rfl
@[simp] theorem writeReg_programmed (n : CounterIndex) (v : Word) (s : State) :
    (writeReg n v s).programmed = if s.env.traceUnitIdle then s.programmed.set n true else s.programmed := by
  unfold writeReg; split <;> rfl
@[simp] theorem writeReg_cuWriteNotIdle (n : CounterIndex) (v : Word) (s : State) :
    (writeReg n v s).cuWriteNotIdle = if s.env.traceUnitIdle then s.cuWriteNotIdle else s.cuWriteNotIdle.set n true := by
  unfold writeReg; split <;> rfl
@[simp] theorem writeReg_counterState (n : CounterIndex) (v : Word) (s : State) :
    (writeReg n v s).counterState = s.counterState := by
  unfold writeReg; split <;> rfl
@[simp] theorem writeReg_counterEvents (n : CounterIndex) (v : Word) (s : State) :
    (writeReg n v s).counterEvents = s.counterEvents := by
  unfold writeReg; split <;> rfl
@[simp] theorem writeReg_history (n : CounterIndex) (v : Word) (s : State) :
    (writeReg n v s).history = s.history := by
  unfold writeReg; split <;> rfl
@[simp] theorem writeReg_draws (n : CounterIndex) (v : Word) (s : State) :
    (writeReg n v s).draws = if s.env.traceUnitIdle then s.draws else s.draws + 1 := by
  unfold writeReg; split <;> rfl
@[simp] theorem writeReg_program (n : CounterIndex) (v : Word) (s : State) :
    (writeReg n v s).program = s.program := by
  unfold writeReg; split <;> rfl
@[simp] theorem writeReg_schedule (n : CounterIndex) (v : Word) (s : State) :
    (writeReg n v s).schedule = s.schedule := by
  unfold writeReg; split <;> rfl

@[simp] theorem readMove_params (m : CounterIndex) (t : RegNum) (s : State) :
    (readMove m t s).params = s.params := by
  simp [readMove]
@[simp] theorem readMove_env (m : CounterIndex) (t : RegNum) (s : State) :
    (readMove m t s).env = s.env := by
  simp [readMove]
@[simp] theorem readMove_x (m : CounterIndex) (t : RegNum) (s : State) :
    (readMove m t s).x = (writeX t (readReg m s) s).x := by
  simp [readMove]
@[simp] theorem readMove_pc (m : CounterIndex) (t : RegNum) (s : State) :
    (readMove m t s).pc = s.pc := by
  simp [readMove]
@[simp] theorem readMove_pe (m : CounterIndex) (t : RegNum) (s : State) :
    (readMove m t s).pe = s.pe := by
  simp [readMove]
@[simp] theorem readMove_trccntctlr (m : CounterIndex) (t : RegNum) (s : State) :
    (readMove m t s).trccntctlr = s.trccntctlr := by
  simp [readMove]
@[simp] theorem readMove_programmed (m : CounterIndex) (t : RegNum) (s : State) :
    (readMove m t s).programmed = s.programmed := by
  simp [readMove]
@[simp] theorem readMove_cuWriteNotIdle (m : CounterIndex) (t : RegNum) (s : State) :
    (readMove m t s).cuWriteNotIdle = s.cuWriteNotIdle := by
  simp [readMove]
@[simp] theorem readMove_counterState (m : CounterIndex) (t : RegNum) (s : State) :
    (readMove m t s).counterState = s.counterState := by
  simp [readMove]
@[simp] theorem readMove_counterEvents (m : CounterIndex) (t : RegNum) (s : State) :
    (readMove m t s).counterEvents = s.counterEvents := by
  simp [readMove]
@[simp] theorem readMove_history (m : CounterIndex) (t : RegNum) (s : State) :
    (readMove m t s).history = s.history ++ [.sysRead m (readReg m s)] := by
  simp [readMove]
@[simp] theorem readMove_draws (m : CounterIndex) (t : RegNum) (s : State) :
    (readMove m t s).draws = s.draws := by
  simp [readMove]
@[simp] theorem readMove_program (m : CounterIndex) (t : RegNum) (s : State) :
    (readMove m t s).program = s.program := by
  simp [readMove]
@[simp] theorem readMove_schedule (m : CounterIndex) (t : RegNum) (s : State) :
    (readMove m t s).schedule = s.schedule := by
  simp [readMove]

@[simp] theorem writeMove_params (m : CounterIndex) (t : RegNum) (s : State) :
    (writeMove m t s).params = s.params := by
  simp [writeMove]
@[simp] theorem writeMove_env (m : CounterIndex) (t : RegNum) (s : State) :
    (writeMove m t s).env = s.env := by
  simp [writeMove]
@[simp] theorem writeMove_x (m : CounterIndex) (t : RegNum) (s : State) :
    (writeMove m t s).x = s.x := by
  simp [writeMove]
@[simp] theorem writeMove_pc (m : CounterIndex) (t : RegNum) (s : State) :
    (writeMove m t s).pc = s.pc := by
  simp [writeMove]
@[simp] theorem writeMove_pe (m : CounterIndex) (t : RegNum) (s : State) :
    (writeMove m t s).pe = s.pe := by
  simp [writeMove]
@[simp] theorem writeMove_trccntctlr (m : CounterIndex) (t : RegNum) (s : State) :
    (writeMove m t s).trccntctlr = (writeReg m (readX t s) s).trccntctlr := by
  simp [writeMove]
@[simp] theorem writeMove_programmed (m : CounterIndex) (t : RegNum) (s : State) :
    (writeMove m t s).programmed = (writeReg m (readX t s) s).programmed := by
  simp [writeMove]
@[simp] theorem writeMove_cuWriteNotIdle (m : CounterIndex) (t : RegNum) (s : State) :
    (writeMove m t s).cuWriteNotIdle = (writeReg m (readX t s) s).cuWriteNotIdle := by
  simp [writeMove]
@[simp] theorem writeMove_counterState (m : CounterIndex) (t : RegNum) (s : State) :
    (writeMove m t s).counterState = s.counterState := by
  simp [writeMove]
@[simp] theorem writeMove_counterEvents (m : CounterIndex) (t : RegNum) (s : State) :
    (writeMove m t s).counterEvents = s.counterEvents := by
  simp [writeMove]
@[simp] theorem writeMove_history (m : CounterIndex) (t : RegNum) (s : State) :
    (writeMove m t s).history = s.history ++ [.sysWrite m (readX t s) s.env.traceUnitIdle] := by
  simp [writeMove]
@[simp] theorem writeMove_draws (m : CounterIndex) (t : RegNum) (s : State) :
    (writeMove m t s).draws = (writeReg m (readX t s) s).draws := by
  simp [writeMove]
@[simp] theorem writeMove_program (m : CounterIndex) (t : RegNum) (s : State) :
    (writeMove m t s).program = s.program := by
  simp [writeMove]
@[simp] theorem writeMove_schedule (m : CounterIndex) (t : RegNum) (s : State) :
    (writeMove m t s).schedule = s.schedule := by
  simp [writeMove]

@[simp] theorem traceUnitStepWith_params (M : CounterModel) (s : State) :
    (traceUnitStepWith M s).params = s.params := rfl
@[simp] theorem traceUnitStepWith_env (M : CounterModel) (s : State) :
    (traceUnitStepWith M s).env = s.env := rfl
@[simp] theorem traceUnitStepWith_x (M : CounterModel) (s : State) :
    (traceUnitStepWith M s).x = s.x := rfl
@[simp] theorem traceUnitStepWith_pc (M : CounterModel) (s : State) :
    (traceUnitStepWith M s).pc = s.pc := rfl
@[simp] theorem traceUnitStepWith_pe (M : CounterModel) (s : State) :
    (traceUnitStepWith M s).pe = s.pe := rfl
@[simp] theorem traceUnitStepWith_trccntctlr (M : CounterModel) (s : State) :
    (traceUnitStepWith M s).trccntctlr = s.trccntctlr := rfl
@[simp] theorem traceUnitStepWith_programmed (M : CounterModel) (s : State) :
    (traceUnitStepWith M s).programmed = s.programmed := rfl
@[simp] theorem traceUnitStepWith_cuWriteNotIdle (M : CounterModel) (s : State) :
    (traceUnitStepWith M s).cuWriteNotIdle = s.cuWriteNotIdle := rfl
@[simp] theorem traceUnitStepWith_counterState (M : CounterModel) (s : State) :
    (traceUnitStepWith M s).counterState = M.next s.counterState (counterInputs s (decrementByChain M s)) := rfl
@[simp] theorem traceUnitStepWith_counterEvents (M : CounterModel) (s : State) :
    (traceUnitStepWith M s).counterEvents = Vector.ofFn (eventsOf M s) := rfl
@[simp] theorem traceUnitStepWith_history (M : CounterModel) (s : State) :
    (traceUnitStepWith M s).history = s.history := rfl
@[simp] theorem traceUnitStepWith_draws (M : CounterModel) (s : State) :
    (traceUnitStepWith M s).draws = s.draws + 8 := rfl
@[simp] theorem traceUnitStepWith_program (M : CounterModel) (s : State) :
    (traceUnitStepWith M s).program = s.program := rfl
@[simp] theorem traceUnitStepWith_schedule (M : CounterModel) (s : State) :
    (traceUnitStepWith M s).schedule = s.schedule := rfl

@[simp] theorem resetEvent_params (u : Unowned) (s : State) : (resetEvent u s).params = s.params := rfl
@[simp] theorem resetEvent_env (u : Unowned) (s : State) : (resetEvent u s).env = u.env := rfl
@[simp] theorem resetEvent_x (u : Unowned) (s : State) : (resetEvent u s).x = u.x := rfl
@[simp] theorem resetEvent_pc (u : Unowned) (s : State) : (resetEvent u s).pc = u.pc := rfl
@[simp] theorem resetEvent_pe (u : Unowned) (s : State) : (resetEvent u s).pe = s.pe := rfl
@[simp] theorem resetEvent_trccntctlr (u : Unowned) (s : State) : (resetEvent u s).trccntctlr = Vector.ofFn (resetDraw s) := rfl
@[simp] theorem resetEvent_programmed (u : Unowned) (s : State) : (resetEvent u s).programmed = Vector.replicate 4 false := rfl
@[simp] theorem resetEvent_cuWriteNotIdle (u : Unowned) (s : State) : (resetEvent u s).cuWriteNotIdle = s.cuWriteNotIdle := rfl
@[simp] theorem resetEvent_counterState (u : Unowned) (s : State) : (resetEvent u s).counterState = Config.freeCounterState s.draws := rfl
@[simp] theorem resetEvent_counterEvents (u : Unowned) (s : State) : (resetEvent u s).counterEvents = s.counterEvents := rfl
@[simp] theorem resetEvent_history (u : Unowned) (s : State) : (resetEvent u s).history = s.history ++ [.reset] := rfl
@[simp] theorem resetEvent_draws (u : Unowned) (s : State) : (resetEvent u s).draws = s.draws + 4 := rfl
@[simp] theorem resetEvent_program (u : Unowned) (s : State) : (resetEvent u s).program = s.program := rfl
@[simp] theorem resetEvent_schedule (u : Unowned) (s : State) : (resetEvent u s).schedule = s.schedule := rfl

end Sys2Proof.Machine
end

