-- ==== Sys2Proof/Laws/Ops.lean ====
section
/-! SUPPORT. What each shared operation can do, said once: registers, accesses, external accesses, turns and steps. -/

namespace Sys2Proof

/-! ## Instructions as (direction, index, register) -/

@[simp] theorem instrOf_direction (d : Direction) (m : CounterIndex) (t : RegNum) : (instrOf d m t).direction = d := by
  cases d <;> fin_cases m <;> rfl

@[simp] theorem instrOf_index (d : Direction) (m : CounterIndex) (t : RegNum) : (instrOf d m t).index = m := by
  cases d <;> fin_cases m <;> rfl

@[simp] theorem instrOf_reg (d : Direction) (m : CounterIndex) (t : RegNum) : (instrOf d m t).reg = t := by
  cases d <;> fin_cases m <;> rfl

/-- An instruction is its direction, index and register number. -/
@[simp] theorem instrOf_self (i : Instr) : instrOf i.direction i.index i.reg = i := by
  cases i <;> rfl

namespace Machine

/-! ## General registers -/

@[simp] theorem readX_zero_register (s : State) : readX 31 s = 0#64 := rfl

theorem readX_writeX_same (t : RegNum) (v : Word) (s : State) (h : t.val < 31) : readX t (writeX t v s) = v := by
  simp [readX, h]

theorem readX_writeX_other (r t : RegNum) (v : Word) (s : State) (h : r ≠ t) :
    readX r (writeX t v s) = readX r s := by
  unfold readX
  split
  · simp only [writeX_x]
    split
    · exact Vector.getElem_set_ne _ _ (fun e => h (Fin.ext e.symm))
    · rfl
  · rfl

/-- A general register is read from the field `x` alone. -/
theorem readX_congr (t : RegNum) {s s' : State} (h : s'.x = s.x) : readX t s' = readX t s := by
  simp [readX, h]

/-! ## The register array -/

theorem keptBits_masked (p : Params) (n : CounterIndex) (v : Word) (h : p.res0Hardwired = true) :
    keptBits p n v &&& ~~~(fieldMask n) = 0#64 := by
  simp [keptBits, h, BitVec.and_assoc, BitVec.and_not_self]

/-- Writing an instance leaves every other instance as it was. -/
theorem writeReg_other (n k : CounterIndex) (v : Word) (s : State) (h : k ≠ n) :
    (writeReg n v s).trccntctlr[k] = s.trccntctlr[k] := by
  simp only [writeReg_trccntctlr]
  exact Vector.getElem_set_ne _ _ (fun e => h (Fin.ext e.symm))

/-- Every write keeps the invariant of hardwired RES0 bits. -/
theorem writeReg_res0Clear (n : CounterIndex) (v : Word) (s : State) (h : s.res0Clear) :
    (writeReg n v s).res0Clear := by
  intro hw k
  have hw' : s.params.res0Hardwired = true := by simpa using hw
  by_cases e : k = n
  · subst e
    simp [readReg, keptBits_masked _ _ _ hw']
  · have hk : readReg k (writeReg n v s) = readReg k s := writeReg_other n k v s e
    rw [hk]; exact h hw' k

/-! ## Accesses -/

/-- The move of an instruction that completes. -/
def moveOf (i : Instr) : State → State :=
  match i.direction with
  | .mrs => readMove i.index i.reg
  | .msr => writeMove i.index i.reg

/-- Every instruction is one access. -/
theorem exec_eq (i : Instr) (s : State) :
    exec i s = accessWith i.direction i.index i.reg (moveOf i) s := by
  cases i <;> rfl

/-- What an instruction can do. -/
theorem exec_cases (i : Instr) (s : State) :
    (s.pc = topPc ∧ exec i s = .refused .pcAtTop) ∨
      (s.pc ≠ topPc ∧ accessOutcome i.direction i.index s.params s.env = .ok ∧
        exec i s = .next (retire (moveOf i s))) ∨
      (s.pc ≠ topPc ∧ ∃ e, accessOutcome i.direction i.index s.params s.env = .raised e ∧
        exec i s = .next (takeException e i s)) := by
  rw [exec_eq, accessWith]
  split
  · exact .inl ⟨‹_›, rfl⟩
  · split
    · next e he => exact .inr (.inr ⟨‹_›, e, he, by simp⟩)
    · next he => exact .inr (.inl ⟨‹_›, he, rfl⟩)

/-- If an instruction answers a next state, it completed or raised. -/
theorem exec_next (i : Instr) (s t : State) (h : exec i s = .next t) :
    (accessOutcome i.direction i.index s.params s.env = .ok ∧ t = retire (moveOf i s)) ∨
      ∃ e, accessOutcome i.direction i.index s.params s.env = .raised e ∧ t = takeException e i s := by
  rcases exec_cases i s with ⟨_, hx⟩ | ⟨_, ho, hx⟩ | ⟨_, e, ho, hx⟩
  · simp [hx] at h
  · exact .inl ⟨ho, by simpa using (hx.symm.trans h).symm⟩
  · exact .inr ⟨e, ho, by simpa using (hx.symm.trans h).symm⟩

/-- The state after a completed instruction is the state after a read or a write, with the pc advanced. -/
theorem moveOf_cases (i : Instr) (s : State) :
    (i.direction = .mrs ∧ moveOf i s = readMove i.index i.reg s) ∨
      (i.direction = .msr ∧ moveOf i s = writeMove i.index i.reg s) := by
  unfold moveOf
  cases h : i.direction
  · exact .inl ⟨rfl, rfl⟩
  · exact .inr ⟨rfl, rfl⟩

/-- The procedure ends in UNDEFINED, a trap with code 0x18, a halt, or the move. -/
theorem accessOutcome_closed (d : Direction) (m : CounterIndex) (p : Params) (e : Env) :
    accessOutcome d m p e = .ok ∨ accessOutcome d m p e = .raised .undefined ∨
      (∃ g, accessOutcome d m p e = .raised (.systemAccessTrap g 0x18)) ∨
      accessOutcome d m p e = .raised (.halt .softwareAccess) := by
  unfold accessOutcome accessFromEl1 accessFromEl2 accessFromEl3 accessTrap
  repeat' split
  all_goals simp

/-! ## External accesses -/

/-- What a guarded external access can do: record its refusal, or, allowed and to an implemented instance, its work. -/
theorem extGuard_cases (n : CounterIndex) (k : State → State) (s : State) :
    (∃ r, extGuard n k s = recordRefusal r s) ∨
      s.env.extAccessAllowed = true ∧ counterImplemented s.params n = true ∧ extGuard n k s = k s := by
  unfold extGuard
  split
  · exact .inl ⟨_, rfl⟩
  · split
    · exact .inl ⟨_, rfl⟩
    · exact .inr (by simp_all)

/-- An allowed access to an implemented instance does its work. -/
theorem extGuard_allowed (n : CounterIndex) (k : State → State) (s : State) (h : s.env.extAccessAllowed = true)
    (hi : counterImplemented s.params n = true) : extGuard n k s = k s := by
  simp [extGuard, h, hi]

/-- While external access is not allowed every access records that and does nothing else. -/
theorem externalAccess_not_allowed (a : ExtAccess) (s : State) (h : s.env.extAccessAllowed = false) :
    externalAccess a s = recordRefusal .extAccessNotAllowed s := by
  cases a with
  | read n => simp [externalAccess, extRead, extGuard, h]
  | write n w => simp [externalAccess, extWrite, extGuard, h]
  | bus off bytes data =>
    simp only [externalAccess, extBus]
    repeat' split
    all_goals simp [extRead, extWrite, extMalformedAccess, extGuard, h]

theorem counterImplemented_of (p : Params) (n : CounterIndex) (h : p.featEte = true)
    (hn : n.val < p.numTraceCounters.val) : counterImplemented p n = true := by
  simp [counterImplemented, indexImplemented, h, hn]

/-- The instance at an offset is the lowest that has it. -/
theorem extIndexAt_of_lowest (p : Params) (n : CounterIndex) (off : Word) (h : p.extOffset[n] = off)
    (hl : ∀ m : CounterIndex, m.val < n.val → p.extOffset[m] ≠ off) : extIndexAt p off = some n := by
  simp only [extIndexAt, List.find?_cons]
  repeat' split
  all_goals fin_cases n <;> simp_all [Fin.forall_fin_succ]

/-- What an external access can do: record its refusal, read, or, when allowed, write. -/
theorem externalAccess_cases (a : ExtAccess) (s : State) :
    (∃ r, externalAccess a s = recordRefusal r s) ∨
      (∃ n, externalAccess a s = record (.extRead n (extValue n s)) s) ∨
      ∃ n w, s.env.extAccessAllowed = true ∧
        (a = .write n w ∨ ∃ off, a = .bus off 4 (some w) ∧ s.params.extOffset[n] = off) ∧
        externalAccess a s = record (.extWrite n w s.env.traceUnitIdle) (writeReg n (extWriteValue n w s) s) := by
  have hr : ∀ n, (∃ r, extRead n s = recordRefusal r s) ∨ extRead n s = record (.extRead n (extValue n s)) s :=
    fun n => (extGuard_cases n _ s).imp_right (·.2.2)
  have hw : ∀ n w, (∃ r, extWrite n w s = recordRefusal r s) ∨ s.env.extAccessAllowed = true ∧
      extWrite n w s = record (.extWrite n w s.env.traceUnitIdle) (writeReg n (extWriteValue n w s) s) :=
    fun n w => (extGuard_cases n _ s).imp_right fun h => ⟨h.1, h.2.2⟩
  cases a with
  | read n => exact (hr n).imp_right fun h => .inl ⟨n, h⟩
  | write n w => exact (hw n w).imp_right fun h => .inr ⟨n, w, h.1, .inl rfl, h.2⟩
  | bus off bytes data =>
    simp only [externalAccess, extBus]
    split
    · next hb =>
      split
      · next n _ => exact (hr n).imp_right fun h => .inl ⟨n, h⟩
      · next n w hn =>
        exact (hw n w).imp_right fun h =>
          .inr ⟨n, w, h.1, .inr ⟨off, by rw [hb.1], by simpa using List.find?_some hn⟩, h.2⟩
      · exact .inl ⟨_, rfl⟩
    · exact .inl ⟨_, rfl⟩

/-! ## Turns -/

/-- If a turn of the PE answers a next state, it ran the instruction listed at the pc. -/
theorem peTurn_next (s t : State) (h : peTurn s = .next t) :
    s.pe = .running ∧ ∃ w i, fetchWord s.program s.pc = some w ∧ decode w = .instr i ∧ exec i s = .next t := by
  unfold peTurn at h
  split at h
  · cases h
  · next hp =>
    split at h
    · cases h
    · next w hw =>
      split at h
      · cases h
      · next i hi => exact ⟨hp, w, i, hw, hi, h⟩

/-- If a resumption answers a next state, the PE was stopped and now runs from where the environment put it. -/
theorem resumePe_next (u : Unowned) (s t : State) (h : resumePe u s = .next t) :
    s.pe ≠ .running ∧ t = { s with x := u.x, pc := u.pc, env := u.env, pe := .running } := by
  unfold resumePe at h
  split at h
  · cases h
  · next hp => exact ⟨by simp [hp], by simpa using h.symm⟩

/-- The state in which a step's turn is taken: the turn is used up. -/
def dropTurn (s : State) : State :=
  { s with schedule := s.schedule.tail }

@[simp] theorem dropTurn_params (s : State) : (dropTurn s).params = s.params := rfl
@[simp] theorem dropTurn_env (s : State) : (dropTurn s).env = s.env := rfl
@[simp] theorem dropTurn_x (s : State) : (dropTurn s).x = s.x := rfl
@[simp] theorem dropTurn_pc (s : State) : (dropTurn s).pc = s.pc := rfl
@[simp] theorem dropTurn_pe (s : State) : (dropTurn s).pe = s.pe := rfl
@[simp] theorem dropTurn_trccntctlr (s : State) : (dropTurn s).trccntctlr = s.trccntctlr := rfl
@[simp] theorem dropTurn_programmed (s : State) : (dropTurn s).programmed = s.programmed := rfl
@[simp] theorem dropTurn_cuWriteNotIdle (s : State) : (dropTurn s).cuWriteNotIdle = s.cuWriteNotIdle := rfl
@[simp] theorem dropTurn_counterState (s : State) : (dropTurn s).counterState = s.counterState := rfl
@[simp] theorem dropTurn_counterEvents (s : State) : (dropTurn s).counterEvents = s.counterEvents := rfl
@[simp] theorem dropTurn_history (s : State) : (dropTurn s).history = s.history := rfl
@[simp] theorem dropTurn_draws (s : State) : (dropTurn s).draws = s.draws := rfl
@[simp] theorem dropTurn_program (s : State) : (dropTurn s).program = s.program := rfl
@[simp] theorem dropTurn_schedule (s : State) : (dropTurn s).schedule = s.schedule.tail := rfl

/-- With no turn scheduled the PE moves. -/
theorem step_of_no_turn (s : State) (h : s.schedule = []) : step s = peTurn s := by
  simp [step, nextTurn, h]

/-- The first scheduled turn is taken and used up. -/
theorem step_of_turn (s : State) (t : Turn) (rest : List Turn) (h : s.schedule = t :: rest) :
    step s = takeTurn t { s with schedule := rest } := by
  simp [step, nextTurn, h]

/-- When it is the PE's turn, scheduled or not, the step is that turn. -/
theorem step_of_pe (s : State) (h : s.schedule = [] ∨ s.schedule.head? = some .pe) : step s = peTurn (dropTurn s) := by
  rcases h with h | h
  · rw [step_of_no_turn s h]
    congr 1
    cases s
    simp_all [dropTurn]
  · cases hs : s.schedule with
    | nil => simp [hs] at h
    | cons t rest =>
      simp only [hs, List.head?_cons, Option.some.injEq] at h
      subst h
      rw [step_of_turn _ _ _ hs]
      simp [takeTurn, dropTurn, hs]

/-- What a step that answers a next state can have done. -/
theorem step_next (s t : State) (h : step s = .next t) :
    ((s.schedule = [] ∨ s.schedule.head? = some .pe) ∧ peTurn (dropTurn s) = .next t) ∨
      (∃ a, s.schedule.head? = some (.debugger a) ∧ t = externalAccess a (dropTurn s)) ∨
      (s.schedule.head? = some .traceUnit ∧ t = traceUnitStepWith Config.counterModel (dropTurn s)) ∨
      (∃ u, s.schedule.head? = some (.reset u) ∧ t = resetEvent u (dropTurn s)) ∨
      (∃ e, s.schedule.head? = some (.environment e) ∧ t = { dropTurn s with env := e }) ∨
      ∃ u, s.schedule.head? = some (.resume u) ∧ resumePe u (dropTurn s) = .next t := by
  unfold step nextTurn at h
  split at h
  · next hs =>
    have hd : dropTurn s = s := by
      cases s
      simp_all [dropTurn]
    exact .inl ⟨.inl hs, hd.symm ▸ h⟩
  · next turn rest hs =>
    have hd : ({ s with schedule := rest } : State) = dropTurn s := by simp [dropTurn, hs]
    rw [hd] at h
    cases turn with
    | pe => exact .inl ⟨.inr (by simp [hs]), h⟩
    | debugger a => exact .inr (.inl ⟨a, by simp [hs], by simpa [takeTurn] using h.symm⟩)
    | traceUnit => exact .inr (.inr (.inl ⟨by simp [hs], by simpa [takeTurn, traceUnitStep] using h.symm⟩))
    | reset u => exact .inr (.inr (.inr (.inl ⟨u, by simp [hs], by simpa [takeTurn] using h.symm⟩)))
    | environment e =>
      exact .inr (.inr (.inr (.inr (.inl ⟨e, by simp [hs], by simpa [takeTurn] using h.symm⟩))))
    | resume u => exact .inr (.inr (.inr (.inr (.inr ⟨u, by simp [hs], h⟩))))

end Machine

end Sys2Proof
end

