-- ==== Sys2Proof/Laws/Decode.lean ====
section
/-! SUPPORT. What the decoder reads from a word, in numbers. -/

namespace Sys2Proof

/-- The mask of every instruction drops the register number. -/
theorem opcode_mask_toNat (w : InstrWord) : (w &&& 0xFFFFFFE0#32).toNat = w.toNat / 32 * 32 := by
  have h : w &&& 0xFFFFFFE0#32 = (w >>> 5) <<< 5 := by
    apply BitVec.eq_of_getLsbD_eq
    intro k hk
    interval_cases k <;> simp
  rw [h, BitVec.toNat_shiftLeft, BitVec.toNat_ushiftRight, Nat.shiftLeft_eq, Nat.shiftRight_eq_div_pow]
  have := w.isLt
  omega

/-- A tuple names an instruction exactly when its five fields are those of the register. -/
theorem decodeAccess_fields (a : SysregAccess) (i : Instr) (h : a.wellFormed = true) :
    decodeAccess a = .instr i ↔
      i.direction = a.direction ∧ i.index = (a.crm.extractLsb' 0 2).toFin ∧ i.reg = a.t := by
  simp only [decodeAccess, h, if_true, Decoded.instr.injEq]
  constructor
  · rintro rfl
    simp
  · rintro ⟨hd, hm, ht⟩
    rw [← hd, ← hm, ← ht, instrOf_self]

/-- Only the tuples of this register name an instruction. -/
theorem decodeAccess_wellFormed (a : SysregAccess) (i : Instr) (h : decodeAccess a = .instr i) :
    a.wellFormed = true := by
  by_contra hf
  simp [decodeAccess, hf] at h

/-- A word decodes to an instruction exactly when its fields, read as numbers, are those of the register and the
instruction's direction, index and register number. -/
theorem decode_eq_instr_iff (w : InstrWord) (i : Instr) :
    decode w = .instr i ↔
      (w.toNat / 2 ^ 22 = 0b1101010100 ∧ w.toNat / 2 ^ 20 % 2 = 1) ∧
      (w.toNat / 2 ^ 19 % 2 = 0 ∧ w.toNat / 2 ^ 16 % 8 = 1 ∧ w.toNat / 2 ^ 12 % 16 = 0 ∧
        w.toNat / 2 ^ 10 % 4 = 1 ∧ w.toNat / 2 ^ 5 % 8 = 5) ∧
      i.direction = (if w.toNat / 2 ^ 21 % 2 = 1 then .mrs else .msr) ∧
      i.index.val = w.toNat / 2 ^ 8 % 4 ∧ i.reg.val = w.toNat % 32 := by
  have hw := w.isLt
  have key : ∀ (k n v : Nat), (w.extractLsb' k n = BitVec.ofNat n v) ↔ w.toNat / 2 ^ k % 2 ^ n = v % 2 ^ n := by
    intro k n v
    rw [← BitVec.toNat_inj, BitVec.extractLsb'_toNat, Nat.shiftRight_eq_div_pow, BitVec.toNat_ofNat]
  have op0 : ∀ b : BitVec 1, (1#1 ++ b = 0b10#2) ↔ b = 0#1 := by decide
  have crm : (w.extractLsb' 8 4).extractLsb' 2 2 = w.extractLsb' 10 2 := by
    rw [← BitVec.toNat_inj]
    simp only [BitVec.extractLsb'_toNat, Nat.shiftRight_eq_div_pow]
    omega
  have idx : ((w.extractLsb' 8 4).extractLsb' 0 2).toFin.val = w.toNat / 2 ^ 8 % 4 := by
    show ((w.extractLsb' 8 4).extractLsb' 0 2).toNat = _
    simp only [BitVec.extractLsb'_toNat, Nat.shiftRight_eq_div_pow]
    omega
  have reg : (w.extractLsb' 0 5).toFin.val = w.toNat % 32 := by
    show (w.extractLsb' 0 5).toNat = _
    simp only [BitVec.extractLsb'_toNat, Nat.shiftRight_eq_div_pow]
    omega
  have top : w.toNat / 2 ^ 22 % 2 ^ 10 = w.toNat / 2 ^ 22 := by omega
  unfold decode wordFields
  by_cases hc : w.extractLsb' 22 10 = 0b1101010100#10 ∧ w.extractLsb' 20 1 = 1#1
  · have hn : w.toNat / 2 ^ 22 = 0b1101010100 ∧ w.toNat / 2 ^ 20 % 2 = 1 := by
      have h1 := (key 22 10 _).1 hc.1
      have h2 := (key 20 1 _).1 hc.2
      exact ⟨by omega, by omega⟩
    simp only [if_pos hc, hn, true_and]
    by_cases hf : w.toNat / 2 ^ 19 % 2 = 0 ∧ w.toNat / 2 ^ 16 % 8 = 1 ∧ w.toNat / 2 ^ 12 % 16 = 0 ∧
        w.toNat / 2 ^ 10 % 4 = 1 ∧ w.toNat / 2 ^ 5 % 8 = 5
    · rw [decodeAccess_fields _ _ (by
        simp only [SysregAccess.wellFormed, Bool.and_eq_true, beq_iff_eq, op0, crm, key]
        omega)]
      simp only [hf, true_and, Fin.ext_iff, idx, reg, key]
      norm_num
    · simp only [hf, false_and, iff_false]
      intro hd
      apply hf
      have hwf := decodeAccess_wellFormed _ _ hd
      simp only [SysregAccess.wellFormed, Bool.and_eq_true, beq_iff_eq, op0, crm, key] at hwf
      omega
  · simp only [if_neg hc, reduceCtorEq, false_iff]
    rintro ⟨⟨h1, h2⟩, -⟩
    exact hc ⟨(key 22 10 _).2 (by omega), (key 20 1 _).2 (by omega)⟩

end Sys2Proof
end

