-- ==== Sys2Proof/Laws/Operands.lean ====
section
/-! SUPPORT. The fields of the register: each depends only on the bits of FIELDMASK(n), so no RES0 bit reaches a rule. -/

namespace Sys2Proof.Machine

theorem rldself_masked (n : CounterIndex) (r : Word) : rldself (r &&& fieldMask n) = rldself r := by
  have hm : (fieldMask n).getLsbD 16 = true := by revert n; decide
  simp [rldself, hm]

theorem cntchain_masked (n : CounterIndex) (r : Word) : cntchain n (r &&& fieldMask n) = cntchain n r := by
  by_cases h : n = 1 ∨ n = 3
  · have hm : (fieldMask n).getLsbD 17 = true := by rcases h with rfl | rfl <;> decide
    unfold cntchain
    rw [BitVec.getLsbD_and, hm, Bool.and_true]
  · simp [cntchain, h]

theorem rldevent_masked (n : CounterIndex) (r : Word) : rldevent (r &&& fieldMask n) = rldevent r := by
  have ht : (fieldMask n).extractLsb' 15 1 = BitVec.allOnes 1 := by revert n; decide
  have hs : (fieldMask n).extractLsb' 8 5 = BitVec.allOnes 5 := by revert n; decide
  unfold rldevent rldeventType rldeventSel
  rw [BitVec.extractLsb'_and, BitVec.extractLsb'_and, ht, hs, BitVec.and_allOnes, BitVec.and_allOnes]

theorem cntevent_masked (n : CounterIndex) (r : Word) : cntevent (r &&& fieldMask n) = cntevent r := by
  have ht : (fieldMask n).extractLsb' 7 1 = BitVec.allOnes 1 := by revert n; decide
  have hs : (fieldMask n).extractLsb' 0 5 = BitVec.allOnes 5 := by revert n; decide
  unfold cntevent cnteventType cnteventSel
  rw [BitVec.extractLsb'_and, BitVec.extractLsb'_and, ht, hs, BitVec.and_allOnes, BitVec.and_allOnes]

end Sys2Proof.Machine
end

