-- ==== Sys2Proof/Laws/PerInstr.lean ====
section
/-! SUPPORT. The per-instruction family AccessTuple: the five-field tuple of each instruction is one of the eight of
spec 30_encoding.md R61, and reads back as the instruction. -/

namespace Sys2Proof.Laws.AccessTuple

/-- The tuple of i names this register, and level-1 decoding of it gives i (R61, R62). -/
def Statement (i : Instr) : Prop :=
  i.access.wellFormed = true ∧ decodeAccess i.access = .instr i

theorem mrsTrccntctlr0 (t : RegNum) : Statement (.mrsTrccntctlr0 t) :=
  ⟨by revert t; decide, by revert t; decide⟩

theorem mrsTrccntctlr1 (t : RegNum) : Statement (.mrsTrccntctlr1 t) :=
  ⟨by revert t; decide, by revert t; decide⟩

theorem mrsTrccntctlr2 (t : RegNum) : Statement (.mrsTrccntctlr2 t) :=
  ⟨by revert t; decide, by revert t; decide⟩

theorem mrsTrccntctlr3 (t : RegNum) : Statement (.mrsTrccntctlr3 t) :=
  ⟨by revert t; decide, by revert t; decide⟩

theorem msrTrccntctlr0 (t : RegNum) : Statement (.msrTrccntctlr0 t) :=
  ⟨by revert t; decide, by revert t; decide⟩

theorem msrTrccntctlr1 (t : RegNum) : Statement (.msrTrccntctlr1 t) :=
  ⟨by revert t; decide, by revert t; decide⟩

theorem msrTrccntctlr2 (t : RegNum) : Statement (.msrTrccntctlr2 t) :=
  ⟨by revert t; decide, by revert t; decide⟩

theorem msrTrccntctlr3 (t : RegNum) : Statement (.msrTrccntctlr3 t) :=
  ⟨by revert t; decide, by revert t; decide⟩

end Sys2Proof.Laws.AccessTuple
end

