-- ==== Sys2Proof/Laws/Runs.lean ====
section
/-! SUPPORT. Runs of spec 70_reset_and_hazards.md R148: the induction over a run, packaged once. -/

namespace Sys2Proof.Machine

/-- What holds after every starting reset and is kept by every step holds of every run. -/
theorem Run.invariant {P : State → Prop}
    (hs : ∀ (s : State) (u : Unowned), s.history = [] → s.pe = .running → s.program.wellFormed = true →
      programListed s.program → u.pc = s.program.base → P (resetEvent u s))
    (hn : ∀ s t, P s → step s = .next t → P t) {done : List Word} {s : State} (h : Run done s) : P s := by
  induction h with
  | start h1 h2 h3 h4 h5 => exact hs _ _ h1 h2 h3 h4 h5
  | more _ h ih => exact hn _ _ ih h

/-- The completed operation of a step that adds one completed access. -/
theorem completedAt_of_access {s t : State} {e : Event} (h : t.history = s.history ++ [e])
    (he : e.isCompletedAccess = true) : completedAt s t = [s.pc] := by
  simp [completedAt, h, he]

end Sys2Proof.Machine
end

