-- ==== Sys2Proof/Tests/Slice0.lean ====
section
/-! SUPPORT. The model's own tests: the vectors of spec/95_test_vectors.md (their labels stand in the comments), ill-formed
terms for each well-formedness check, and for each statement with hypotheses a state that meets them. -/

namespace Sys2Proof.Tests

open Sys2Proof Sys2Proof.Machine Sys2Proof.Spec

/-- The next state, if there is one. -/
def after (o : Host.Outcome State Fault Refusal) : Option State :=
  match o with
  | .next s => some s
  | .fault _ => none
  | .refused _ => none

/-- The refusal, if there is one. -/
def refusalOf (o : Host.Outcome State Fault Refusal) : Option Refusal :=
  match o with
  | .refused r => some r
  | .next _ => none
  | .fault _ => none

/-! ## Well-formedness: the vectors E1 to E7, and programs -/

/-- A tuple with direction MRS and register 0. -/
def tuple (op0 : BitVec 2) (op1 : BitVec 3) (crn crm : BitVec 4) (op2 : BitVec 3) : SysregAccess :=
  ⟨.mrs, op0, op1, crn, crm, op2, 0⟩

theorem test_tuple_of_trccntctlr0_wellFormed : (tuple 0b10 0b001 0b0000 0b0100 0b101).wellFormed = true := by decide

theorem test_tuple_crm_illFormed : (tuple 0b10 0b001 0b0000 0b1000 0b101).wellFormed = false := by decide

theorem test_tuple_op2_illFormed : (tuple 0b10 0b001 0b0000 0b0100 0b100).wellFormed = false := by decide

theorem test_tuple_op1_illFormed : (tuple 0b10 0b000 0b0000 0b0100 0b101).wellFormed = false := by decide

theorem test_tuple_op0_illFormed : (tuple 0b11 0b001 0b0000 0b0100 0b101).wellFormed = false := by decide

theorem test_tuple_crn_illFormed : (tuple 0b10 0b001 0b0001 0b0100 0b101).wellFormed = false := by decide

theorem test_program_wellFormed : (Program.mk 0x1000 [0xD51104A0, 0xD53104A1]).wellFormed = true := by decide

theorem test_program_misaligned_illFormed : (Program.mk 0x1002 [0xD51104A0]).wellFormed = false := by decide

theorem test_program_too_high_illFormed : (Program.mk 0xFFFF_FFFF_FFFF_FFFC [0xD51104A0]).wellFormed = false := by decide

/-! ## Encoding and decoding: E1, E2, E10 to E28, and the encoder table -/

theorem test_decode_tuple_E1 : decodeAccess (tuple 0b10 0b001 0b0000 0b0100 0b101) = .instr (.mrsTrccntctlr0 0) := by
  decide

theorem test_decode_tuple_E2 :
    decodeAccess ⟨.msr, 0b10, 0b001, 0b0000, 0b0111, 0b101, 0⟩ = .instr (.msrTrccntctlr3 0) := by decide

theorem test_decode_mrs_words : decode 0xD53104BF = .instr (.mrsTrccntctlr0 31) ∧
    decode 0xD53105A0 = .instr (.mrsTrccntctlr1 0) ∧ decode 0xD53106A5 = .instr (.mrsTrccntctlr2 5) ∧
    decode 0xD53107BE = .instr (.mrsTrccntctlr3 30) := by
  refine ⟨?_, ?_, ?_, ?_⟩ <;> decide

theorem test_decode_msr_words : decode 0xD51104A0 = .instr (.msrTrccntctlr0 0) ∧
    decode 0xD51105A3 = .instr (.msrTrccntctlr1 3) ∧ decode 0xD51106BF = .instr (.msrTrccntctlr2 31) ∧
    decode 0xD51107A0 = .instr (.msrTrccntctlr3 0) := by
  refine ⟨?_, ?_, ?_, ?_⟩ <;> decide

theorem test_decode_other_words :
    decode 0xD53104C0#32 = .notThisRegister ∧ decode 0xD5310480#32 = .notThisRegister ∧
      decode 0xD53108A0#32 = .notThisRegister ∧ decode 0xD5310BA0#32 = .notThisRegister ∧
      decode 0xD53004A0#32 = .notThisRegister ∧ decode 0xD53904A0#32 = .notThisRegister ∧
      decode 0xD53114A0#32 = .notThisRegister ∧ decode 0xD50104A0#32 = .notThisRegister ∧
      decode 0xD503201F#32 = .notThisRegister ∧ decode 0x00000000#32 = .notThisRegister := by
  refine ⟨?_, ?_, ?_, ?_, ?_, ?_, ?_, ?_, ?_, ?_⟩ <;> decide

theorem test_encode_mrs_words : encode (.mrsTrccntctlr0 7) = 0xD53104A7 ∧ encode (.mrsTrccntctlr1 31) = 0xD53105BF ∧
    encode (.mrsTrccntctlr2 7) = 0xD53106A7 ∧ encode (.mrsTrccntctlr3 31) = 0xD53107BF := by decide

theorem test_encode_msr_words : encode (.msrTrccntctlr0 31) = 0xD51104BF ∧ encode (.msrTrccntctlr1 7) = 0xD51105A7 ∧
    encode (.msrTrccntctlr2 31) = 0xD51106BF ∧ encode (.msrTrccntctlr3 7) = 0xD51107A7 := by decide

theorem test_decode_table_word : decodeTableWord 32 0xD53106A0 = some (.mrsTrccntctlr2 0) := by decide

/-! ## Fields: F3, F4, F9, F11, F7, and FIELDMASK -/

theorem test_fields_F4 : cntchain 1 0x38184 = true ∧ rldself 0x38184 = true ∧ rldevent 0x38184 = .pair 1 ∧
    cntevent 0x38184 = .pair 4 := by decide

theorem test_fields_F3 : rldself 0x18203 = true ∧ rldevent 0x18203 = .pair 2 ∧ cntevent 0x18203 = .single 3 := by decide

theorem test_fields_F7_F8 : rldevent 0x1F1F = .single 31 ∧ cntevent 0x1F1F = .single 31 ∧ rldevent 0x1000 = .single 16 := by
  decide

theorem test_fields_sel4_ignored_F9_F11 : rldevent 0x9000 = .pair 0 ∧ cntevent 0x90 = .pair 0 ∧ cntevent 0x81 = .pair 1 := by
  decide

theorem test_bit17_is_no_chain_in_even_instances : cntchain 0 0x38184 = false ∧ cntchain 2 0x38184 = false := by decide

theorem test_fieldMask : fieldMask 0 = 0x19F9F ∧ fieldMask 1 = 0x39F9F ∧ fieldMask 2 = 0x19F9F ∧ fieldMask 3 = 0x39F9F := by
  decide

/-! ## The access procedure: A1 to A41 -/

/-- "All clear" at a level, with the inputs and parameters a row sets. -/
def allClear (el : ExceptionLevel) : Env :=
  { resetEnv with el := el }

/-- Parameters with EL3, fine-grained traps and the trace buffer extension implemented as given. -/
def features (el3 fgt trbeExt : Bool) : Params :=
  { resetParams with haveEl3 := el3, featFgt := fgt, featTrbeExt := trbeExt }

theorem test_access_absent_A1_to_A6 :
    accessOutcome .mrs 0 resetParams (allClear .el0) = .raised .undefined ∧
    accessOutcome .mrs 3 { resetParams with numTraceCounters := 2 } { allClear .el3 with cptrEl3Tta := true } =
      .raised .undefined ∧
    accessOutcome .mrs 0 { resetParams with numTraceCounters := 0 } (allClear .el1) = .raised .undefined ∧
    accessOutcome .mrs 1 { resetParams with numTraceCounters := 1 } (allClear .el1) = .raised .undefined ∧
    accessOutcome .mrs 0 { resetParams with featEte := false } (allClear .el1) = .raised .undefined ∧
    accessOutcome .msr 0 { resetParams with sysregTraceAccess := false } (allClear .el3) = .raised .undefined := by
  decide

theorem test_access_el1_A7_to_A12 :
    accessOutcome .mrs 0 resetParams (allClear .el1) = .ok ∧
    accessOutcome .msr 0 resetParams { allClear .el1 with cpacrEl1Tta := true } = accessTrap .el1 ∧
    accessOutcome .mrs 0 (features true false false)
      { allClear .el1 with cpacrEl1Tta := true, el3SddUndefPriority := true, cptrEl3Tta := true } =
      .raised .undefined ∧
    accessOutcome .mrs 0 resetParams { allClear .el1 with cpacrEl1Tta := true, el2Enabled := true, cptrEl2Tta := true } =
      accessTrap .el1 ∧
    accessOutcome .msr 1 resetParams { allClear .el1 with el2Enabled := true, cptrEl2Tta := true } = accessTrap .el2 ∧
    accessOutcome .msr 1 resetParams { allClear .el1 with cptrEl2Tta := true } = .ok := by
  decide

theorem test_access_fine_grained_A13_to_A18 :
    accessOutcome .mrs 2 (features false true false) { allClear .el1 with el2Enabled := true, hdfgrtrEl2Trc := true } =
      accessTrap .el2 ∧
    accessOutcome .msr 2 (features false true false) { allClear .el1 with el2Enabled := true, hdfgrtrEl2Trc := true } =
      .ok ∧
    accessOutcome .msr 2 (features false true false) { allClear .el1 with el2Enabled := true, hdfgwtrEl2Trc := true } =
      accessTrap .el2 ∧
    accessOutcome .mrs 2 (features true true false) { allClear .el1 with el2Enabled := true, hdfgrtrEl2Trc := true } =
      .ok ∧
    accessOutcome .mrs 2 (features true true false)
      { allClear .el1 with el2Enabled := true, hdfgrtrEl2Trc := true, scrEl3FgtEn := true } = accessTrap .el2 ∧
    accessOutcome .mrs 2 resetParams { allClear .el1 with el2Enabled := true, hdfgrtrEl2Trc := true } = .ok := by
  decide

theorem test_access_el1_A19_to_A26 :
    accessOutcome .mrs 3 (features true false false) { allClear .el1 with cptrEl3Tta := true } = accessTrap .el3 ∧
    accessOutcome .mrs 3 (features true false false) { allClear .el1 with cptrEl3Tta := true, el3SddUndef := true } =
      .raised .undefined ∧
    accessOutcome .mrs 3 resetParams { allClear .el1 with cptrEl3Tta := true } = .ok ∧
    accessOutcome .msr 0 (features false false true)
      { allClear .el1 with haltingAllowed := true, edscr2Tta := true, el1UsingAArch32 := true } =
      .raised (.halt .softwareAccess) ∧
    accessOutcome .msr 0 (features false false true)
      { allClear .el1 with haltingAllowed := true, edscr2Tta := true, oslsrEl1Oslk := true } = .ok ∧
    accessOutcome .msr 0 (features true false true)
      { allClear .el1 with haltingAllowed := true, edscr2Tta := true, cptrEl3Tta := true } = accessTrap .el3 ∧
    accessOutcome .msr 0 resetParams { allClear .el1 with haltingAllowed := true, edscr2Tta := true } = .ok := by
  decide

theorem test_access_el2_A27_to_A35 :
    accessOutcome .mrs 0 resetParams { allClear .el2 with cptrEl2Tta := true } = accessTrap .el2 ∧
    accessOutcome .mrs 0 resetParams { allClear .el2 with cpacrEl1Tta := true } = .ok ∧
    accessOutcome .mrs 0 (features false true false)
      { allClear .el2 with el2Enabled := true, hdfgrtrEl2Trc := true, hdfgwtrEl2Trc := true } = .ok ∧
    accessOutcome .msr 1 (features false false true)
      { allClear .el2 with haltingAllowed := true, edscr2Tta := true, el1UsingAArch32 := true } = .ok ∧
    accessOutcome .msr 1 (features false false true) { allClear .el2 with haltingAllowed := true, edscr2Tta := true } =
      .raised (.halt .softwareAccess) ∧
    accessOutcome .msr 1 (features true false false)
      { allClear .el2 with el3SddUndefPriority := true, cptrEl3Tta := true, cptrEl2Tta := true } =
      .raised .undefined ∧
    accessOutcome .msr 1 (features true false false) { allClear .el2 with el3SddUndef := true, cptrEl3Tta := true } =
      .raised .undefined ∧
    accessOutcome .msr 1 (features true false false) { allClear .el2 with cptrEl3Tta := true, cptrEl2Tta := true } =
      accessTrap .el2 ∧
    accessOutcome .msr 1 (features true false false) { allClear .el2 with cptrEl3Tta := true } = accessTrap .el3 := by
  decide

theorem test_access_el3_A36_to_A41 :
    accessOutcome .mrs 0 (features true false false)
      { allClear .el3 with cptrEl3Tta := true, el3SddUndef := true, el3SddUndefPriority := true } = accessTrap .el3 ∧
    accessOutcome .mrs 0 resetParams (allClear .el3) = .ok ∧
    accessOutcome .mrs 0 (features false false true) { allClear .el3 with haltingAllowed := true, edscr2Tta := true } =
      .raised (.halt .softwareAccess) ∧
    accessOutcome .mrs 0 (features false false true)
      { allClear .el3 with haltingAllowed := true, edscr2Tta := true, cptrEl3Tta := true } = accessTrap .el3 ∧
    accessOutcome .mrs 0 (features false false true)
      { allClear .el3 with haltingAllowed := true, edscr2Tta := true, el1UsingAArch32 := true } = .ok ∧
    accessOutcome .mrs 0 resetParams
      { allClear .el3 with cpacrEl1Tta := true, cptrEl2Tta := true, el2Enabled := true } = .ok := by
  decide

/-! ## One step of each instruction -/

/-- A small state: pc 0x1000, one general register and one control register set. -/
def small (t : Fin 31) (v : Word) (m : CounterIndex) (r : Word) : State :=
  { State.reset with pc := 0x1000, x := State.reset.x.set t v, trccntctlr := State.reset.trccntctlr.set m r }

/-- The same with RES0 bits stored. -/
def stored (s : State) : State :=
  { s with params := { s.params with res0Hardwired := false } }

/-- The worked example of R81. -/
theorem test_mrs2_example : (after (exec (.mrsTrccntctlr2 5) (small 5 0 2 0x18203))).map (fun s => (readX 5 s, s.pc)) =
    some (0x18203, 0x1004) := by decide

/-- The worked example of R82, at EL2. -/
theorem test_msr1_example :
    (after (exec (.msrTrccntctlr1 3) { small 3 0x38184 0 0 with env := allClear .el2 })).map
      (fun s => (readReg 1 s, s.pc)) = some (0x38184, 0x1004) := by decide

/-- P4, first step. -/
theorem test_mrs1_reads_bit17 : (after (exec (.mrsTrccntctlr1 0) (small 0 0x1111 1 0x20081))).map (readX 0) =
    some 0x20081 := by decide

/-- W9: XZR discards the value. -/
theorem test_mrs1_xzr : (after (exec (.mrsTrccntctlr1 31) (small 0 7 1 0x81))).map (fun s => (s.x, s.pc)) =
    some ((small 0 7 1 0x81).x, 0x1004) := by decide

/-- P3, read at the same trap: nothing moves. -/
theorem test_mrs0_trapped :
    (after (exec (.mrsTrccntctlr0 1) { small 1 7 0 0x203 with env := { resetEnv with cpacrEl1Tta := true } })).map
      (fun s => (readX 1 s, s.pc, s.pe)) =
      some (7, 0x1000, .stopped (.systemAccessTrap .el1 0x18) (.mrsTrccntctlr0 1)) := by decide

/-- P1, second step. -/
theorem test_mrs0_reads : (after (exec (.mrsTrccntctlr0 1) (small 1 0xDEAD 0 0x18203))).map (readX 1) = some 0x18203 := by
  decide

/-- P6, first step: a read while the trace unit is not Idle. -/
theorem test_mrs3_not_idle :
    (after (exec (.mrsTrccntctlr3 1) { small 1 0 3 0x81 with env := { resetEnv with traceUnitIdle := false } })).map
      (fun s => (readX 1 s, s.cuWriteNotIdle[3])) = some (0x81, false) := by decide

/-- W2 and W3: bit 17 of instance 0. -/
theorem test_msr0_res0_bit17 :
    (after (exec (.msrTrccntctlr0 0) (small 0 0x38184 0 0))).map (readReg 0) = some 0x18184 ∧
      (after (exec (.msrTrccntctlr0 0) (stored (small 0 0x38184 0 0)))).map (readReg 0) = some 0x38184 := by decide

/-- P1, first step: the ghost flag. -/
theorem test_msr0_programmed :
    (after (exec (.msrTrccntctlr0 0) (small 0 0x18203 0 0))).map (fun s => (s.programmed[0], s.programmed[1])) =
      some (true, false) := by decide

/-- W6: XZR writes zero. -/
theorem test_msr2_xzr : (after (exec (.msrTrccntctlr2 31) (small 0 7 2 0x203))).map (readReg 2) = some 0 := by decide

/-- P5, first step. -/
theorem test_msr2_all_ones :
    (after (exec (.msrTrccntctlr2 4) (small 4 0xFFFF_FFFF_FFFF_FFFF 2 0))).map (readReg 2) = some 0x19F9F := by decide

/-- W4. -/
theorem test_msr3_all_ones :
    (after (exec (.msrTrccntctlr3 0) (small 0 0xFFFF_FFFF_FFFF_FFFF 3 0))).map (readReg 3) = some 0x39F9F := by decide

/-- W7 and P6, second step: not Idle. -/
theorem test_msr3_not_idle :
    (after (exec (.msrTrccntctlr3 0) { small 0 0x203 3 0x81 with env := { resetEnv with traceUnitIdle := false } })).map
      (fun s => (s.cuWriteNotIdle[3], s.programmed[3], s.pc)) = some (true, false, 0x1004) := by decide

/-- The fetch: the very next step after reset runs the placed word. -/
theorem test_step_runs_placed_word :
    (after (step (State.reset.withFetchWord 32 0xD53104A1))).map (·.pc) = some 4 := by decide

/-- E27: a word that is no access is refused. -/
theorem test_step_refuses_nop :
    refusalOf (step (State.reset.withFetchWord 32 0xD503201F)) = some (.notThisRegister [.refused .notThisRegister]) := by decide

/-! ## Syndromes: Y1 to Y4 -/

theorem test_syndromes : trapSyndrome 0x18 (.msrTrccntctlr0 0) = 0x622A4008 ∧
    trapSyndrome 0x18 (.mrsTrccntctlr0 1) = 0x622A4029 ∧ trapSyndrome 0x18 (.mrsTrccntctlr2 5) = 0x622A40AD ∧
    trapSyndrome 0x18 (.msrTrccntctlr3 30) = 0x622A43CE := by decide

/-! ## The external view: X1 to X4, X6 to X8 -/

theorem test_extRead_X1 : (extRead 1 (small 0 0 1 0x38184)).history = [.extRead 1 0x00038184] := by
  decide

theorem test_extWrite_keeps_upper_word_X2 :
    readReg 0 (extWrite 0 0x81 (stored (small 0 0 0 0xAAAA_5555_0001_8203))) = 0xAAAA_5555_0000_0081 := by decide

theorem test_extWrite_masked_X3_X4 : readReg 0 (extWrite 0 0xFFFFFFFF (small 0 0 0 0x18203)) = 0x19F9F ∧
    readReg 3 (extWrite 3 0xFFFFFFFF (small 0 0 3 0)) = 0x39F9F := by decide

theorem test_ext_refused_X6_X7 :
    (extRead 0 { State.reset with env := { resetEnv with extAccessAllowed := false } }).history =
      [.refused .extAccessNotAllowed] ∧
    (extRead 2 { State.reset with params := { resetParams with numTraceCounters := 2 } }).history =
      [.refused .extNotImplemented] := by decide

theorem test_ext_malformed_X8 : (extBus 0x150 2 none State.reset).history = [.refused .extMalformed] ∧
    (extBus 0x152 4 none State.reset).history = [.refused .extMalformed] ∧
    (extBus 0x154 4 none (small 0 0 1 0x81)).history = [.extRead 1 0x81] := by decide

/-! ## Events: V1, V4 to V6, V10, V11, V13, V14 -/

/-- A `CounterModel` in which the named counter reaches zero at every step. -/
def zeroModel (k : CounterIndex) : CounterModel :=
  { next := fun c _ => c, reachesZero := fun _ _ n => n == k }

/-- A `CounterModel` in which no counter reaches zero. -/
def idleModel : CounterModel :=
  { next := fun c _ => c, reachesZero := fun _ _ _ => false }

/-- Resource Selector i and pair k active, two control registers set. -/
def running (i : Option (Fin 32)) (k : Option (Fin 16)) (a : CounterIndex) (ra : Word) (b : CounterIndex) (rb : Word) :
    State :=
  { State.reset with
    env :=
      { resetEnv with
        rs := Vector.ofFn fun j => i == some j
        rsPair := Vector.ofFn fun j => k == some j }
    trccntctlr := (State.reset.trccntctlr.set a ra).set b rb }

theorem test_events_V1 : (eventsOf idleModel (running (some 3) none 0 0x18203 0 0x18203) 0).decrement = true ∧
    (eventsOf idleModel (running (some 3) none 0 0x18203 0 0x18203) 0).reload = false := by decide

theorem test_events_V2_V4_V5 :
    (eventsOf idleModel (running none (some 2) 0 0x18203 1 0x38184) 0) = ⟨false, false, true, false⟩ ∧
    (eventsOf idleModel (running none (some 2) 0 0x18203 1 0x38184) 1).decrementByChain = true ∧
    (eventsOf idleModel (running none (some 2) 0 0x18203 1 0x18184) 1).decrement = false := by decide

theorem test_events_V6 : (eventsOf idleModel (stored (running none (some 4) 2 0x20003 1 0x8400)) 2).decrement = false ∧
    (eventsOf idleModel (stored (running none (some 4) 2 0x20003 1 0x8400)) 1).reload = true := by decide

theorem test_events_V10 (f : Bool) :
    eventActive { resetParams with rsImplemented := resetParams.rsImplemented.set 31 false }
      { resetEnv with resourcesPaused := true, pausedFire := true } f (cntevent 0x1F) = true := by
  revert f; decide

theorem test_events_V11 (f : Bool) : eventActive resetParams resetEnv f (cntevent 0x1F) = false := by revert f; decide

theorem test_events_V13 : (eventsOf (zeroModel 2) (running (some 2) none 3 0x30000 2 0x10002) 2) =
      ⟨true, false, false, true⟩ ∧
    (eventsOf (zeroModel 2) (running (some 2) none 3 0x30000 2 0x10002) 3).decrementByChain = true := by decide

theorem test_events_V14 : (eventsOf (zeroModel 2) (running (some 2) none 3 0x30000 2 0x2) 2) =
      ⟨true, false, false, false⟩ ∧
    (eventsOf (zeroModel 2) (running (some 2) none 3 0x30000 2 0x2) 3).decrement = false := by decide

/-! ## Witnesses: a state that meets the hypotheses of each statement that has some -/

/-- The placed word after reset: a running PE, a fetched word, no scheduled turn. -/
theorem test_witness_StepRunsDecodedInstruction :
    (State.reset.withFetchWord 32 0xD53104A1).pe = .running ∧
      fetchWord (State.reset.withFetchWord 32 0xD53104A1).program (State.reset.withFetchWord 32 0xD53104A1).pc =
        some 0xD53104A1 ∧ decode 0xD53104A1 = .instr (.mrsTrccntctlr0 1) ∧
      (State.reset.withFetchWord 32 0xD53104A1).schedule = [] ∧
      ({ State.reset.withFetchWord 32 0xD53104A1 with schedule := [.pe, .traceUnit] } : State).schedule =
        .pe :: [.traceUnit] := by decide

theorem test_witness_FetchReadsTheListedWord : (Program.mk 0x1000 [0xD51104A0, 0xD53104A1]).wellFormed = true ∧
    (Program.mk 0x1000 [0xD51104A0, 0xD53104A1]).words[1]? = some 0xD53104A1 ∧ (0x1002#64).toNat % 4 ≠ 0 := by decide

theorem test_witness_StepRefusesOtherWords (i : Instr) :
    (State.reset.withFetchWord 32 0xD503201F).schedule = [] ∧
      ({ State.reset.withFetchWord 32 0xD503201F with schedule := [.pe] } : State).schedule.head? = some .pe ∧
      (State.reset.withFetchWord 32 0xD503201F).pe = .running ∧
      fetchWord (State.reset.withFetchWord 32 0xD503201F).program (State.reset.withFetchWord 32 0xD503201F).pc =
        some 0xD503201F ∧ 0xD503201F#32 &&& 0xFFFFFFE0#32 ≠ matchWord i := by
  refine ⟨rfl, rfl, rfl, by decide, ?_⟩
  cases i <;> (simp only [matchWord]; decide)

/-- A stopped PE. -/
def stoppedState : State :=
  { State.reset with pe := .stopped .undefined (.mrsTrccntctlr0 0) }

theorem test_witness_StoppedPeHasNoStep : stoppedState.pe = .stopped .undefined (.mrsTrccntctlr0 0) ∧
    stoppedState.schedule = [] ∧ ({ stoppedState with schedule := [.pe] } : State).schedule.head? = some .pe := by decide

theorem test_witness_TopOfAddressSpaceRefused :
    ({ State.reset with pc := 0xFFFF_FFFF_FFFF_FFFC } : State).pc = 0xFFFF_FFFF_FFFF_FFFC#64 := rfl

/-- EveryAccessHasOneOutcome, UndefinedExactly, SystemAccessTrapExactly, HaltExactly. -/
theorem test_witness_Runs : Runs State.reset ∧ Runs { State.reset with pc := 0xFFFF_FFFF_FFFF_FFF8 } :=
  ⟨⟨rfl, by decide⟩, ⟨rfl, by decide⟩⟩

/-- HaltExactly, second part. -/
theorem test_witness_HaltExactly : Runs { State.reset with env := allClear .el0 } ∧
    (after (exec (.mrsTrccntctlr0 0) { State.reset with env := allClear .el0 })).isSome = true :=
  ⟨⟨rfl, by decide⟩, by decide⟩

/-- Each of the three ways to be absent, the index at its boundary. -/
theorem test_witness_AbsentInstanceIsUndefined : State.reset.pc ≠ 0xFFFF_FFFF_FFFF_FFFC#64 ∧
    (Instr.mrsTrccntctlr2 0).index.val ≥ ({ resetParams with numTraceCounters := 2 } : Params).numTraceCounters.val ∧
    ({ resetParams with featEte := false } : Params).featEte = false ∧
    ({ resetParams with sysregTraceAccess := false } : Params).sysregTraceAccess = false := by decide

theorem test_witness_El0NeverAccesses : ({ State.reset with env := allClear .el0 } : State).pc ≠
      0xFFFF_FFFF_FFFF_FFFC#64 ∧ ({ State.reset with env := allClear .el0 } : State).env.el = .el0 := by decide

theorem test_witness_NonOkChangesNothing : State.reset.pc ≠ 0xFFFF_FFFF_FFFF_FFFC#64 ∧
    (firstCause (.msrTrccntctlr0 0) { State.reset with env := { resetEnv with cpacrEl1Tta := true } }).isSome := by decide

theorem test_witness_FineGrainedTrapsAreDirectional :
    (Instr.mrsTrccntctlr0 0).direction = .mrs ∧ (Instr.msrTrccntctlr0 0).direction = .msr ∧
      (after (exec (.mrsTrccntctlr0 0) State.reset)).isSome = true ∧
      (after (exec (.msrTrccntctlr0 0) State.reset)).isSome = true ∧
      ({ State.reset with env := allClear .el2 } : State).env.el = .el2 ∧
      ({ State.reset with env := allClear .el3 } : State).env.el = .el3 ∧
      (after (exec (.msrTrccntctlr0 0) { State.reset with env := allClear .el2 })).isSome = true ∧
      (after (exec (.msrTrccntctlr0 0) { State.reset with env := allClear .el3 })).isSome = true := by decide

/-- A trap at EL1. -/
def trapping : State :=
  { State.reset with env := { resetEnv with cpacrEl1Tta := true } }

theorem test_witness_TrapSyndromeValue : Runs trapping ∧
    (after (exec (.mrsTrccntctlr2 5) trapping)).map (·.pe) =
      some (.stopped (.systemAccessTrap .el1 0x18) (.mrsTrccntctlr2 5)) :=
  ⟨⟨rfl, by decide⟩, by decide⟩

/-- MRS: MrsCopiesTheRegister, MrsNextState, MrsFrame, for each constructor, registers 0, 30 and 31, at EL1, EL2 and EL3. -/
theorem test_witness_mrs_permitted : ∀ i ∈ [Instr.mrsTrccntctlr0 0, .mrsTrccntctlr1 30, .mrsTrccntctlr2 31,
    .mrsTrccntctlr3 30], i.direction = .mrs ∧ ∀ el ∈ [ExceptionLevel.el1, .el2, .el3],
      Permitted i { State.reset with env := allClear el } := by
  unfold Permitted; decide

/-- MSR: MsrPresentsAllBits, MsrIdleNextState, MsrFrame, for each constructor, registers 0, 30 and 31, at EL1, EL2 and EL3,
external access allowed (ViewsShareTheRegister, TwoWritersOneValueRemains). -/
theorem test_witness_msr_permitted : ∀ i ∈ [Instr.msrTrccntctlr0 0, .msrTrccntctlr1 30, .msrTrccntctlr2 31,
    .msrTrccntctlr3 30], i.direction = .msr ∧ ∀ el ∈ [ExceptionLevel.el1, .el2, .el3],
      Permitted i { State.reset with env := allClear el } ∧ (allClear el).traceUnitIdle = true ∧
        (allClear el).extAccessAllowed = true := by
  unfold Permitted; decide

/-- MsrNotIdleNextState. -/
theorem test_witness_MsrNotIdleNextState : (Instr.msrTrccntctlr3 31).direction = .msr ∧
    Permitted (.msrTrccntctlr3 31) { State.reset with env := { resetEnv with traceUnitIdle := false } } ∧
      ({ resetEnv with traceUnitIdle := false } : Env).traceUnitIdle = false := by
  unfold Permitted; decide

/-- ViewsShareTheRegister, second part: register 30. -/
theorem test_witness_ViewsShareTheRegister : (Instr.mrsTrccntctlr3 30).reg.val < 31 ∧
    Permitted (.mrsTrccntctlr3 30) State.reset ∧ State.reset.env.traceUnitIdle = true ∧
      State.reset.env.extAccessAllowed = true := by
  unfold Permitted; decide

/-- A state with one scheduled turn. -/
def withTurn (t : Turn) : State :=
  { State.reset with schedule := [t] }

/-- ExtReadNextState, ExtWriteNextState (Idle and not), for the last instance. -/
theorem test_witness_ext_allowed : (withTurn (.debugger (.read 3))).schedule = .debugger (.read 3) :: [] ∧
    (withTurn (.debugger (.write 3 1))).schedule = .debugger (.write 3 1) :: [] ∧
    State.reset.env.extAccessAllowed = true ∧ State.reset.params.featEte = true ∧
    (3 : CounterIndex).val < State.reset.params.numTraceCounters.val ∧ State.reset.env.traceUnitIdle = true ∧
    ({ withTurn (.debugger (.write 3 1)) with env := { resetEnv with traceUnitIdle := false } } : State).env.traceUnitIdle =
      false := by decide

/-- ExternalAccessRefusals: each clause at its boundary. -/
theorem test_witness_ExternalAccessRefusals :
    (withTurn (.debugger (.bus 0x160 4 none))).schedule = .debugger (.bus 0x160 4 none) :: [] ∧
    ({ resetEnv with extAccessAllowed := false } : Env).extAccessAllowed = false ∧
    State.reset.env.extAccessAllowed = true ∧ ({ resetParams with featEte := false } : Params).featEte = false ∧
    ({ resetParams with numTraceCounters := 2 } : Params).numTraceCounters.val ≤ (2 : CounterIndex).val ∧
    (3 ≠ 4 ∧ 5 ≠ 4) ∧ (0x151#64).toNat % 4 ≠ 0 ∧
    ∀ n : CounterIndex, State.reset.params.extOffset[n] ≠ 0x160#64 := by decide

/-- AlignedBusAccessReachesTheRegister: the last instance. -/
theorem test_witness_AlignedBusAccessReachesTheRegister : State.reset.params.extOffset[(3 : CounterIndex)] = 0x15C#64 ∧
    (0x15C#64).toNat % 4 = 0 ∧
    ∀ m : CounterIndex, m.val < (3 : CounterIndex).val → State.reset.params.extOffset[m] ≠ 0x15C#64 := by decide

/-- SelectedEventsCount, TraceUnitFrame, and the implemented counters of SelfReloadOnlyInSelfReloadMode and
ChainFollowsTheReloadBelow: with 4 counters all of 0 to 3. -/
theorem test_witness_trace_unit : (withTurn .traceUnit).schedule = .traceUnit :: [] ∧
    (withTurn .traceUnit).params.featEte = true ∧
    (∀ n : CounterIndex, n.val < (withTurn .traceUnit).params.numTraceCounters.val) ∧
    1 < (withTurn .traceUnit).params.numTraceCounters.val ∧ 3 < (withTurn .traceUnit).params.numTraceCounters.val ∧
    rldself (0x10000 : Word) = true ∧ rldself (0xFFFF : Word) = false := by decide

/-- SelectedEventsCount: both events active (V12 with RS(0) true). -/
theorem test_witness_SelectedEventsCount (f : Bool) :
    eventActive resetParams (running (some 0) none 0 0 1 0).env f (cntevent 0) = true ∧
      eventActive resetParams (running (some 0) none 0 0 1 0).env f (rldevent 0) = true := by
  revert f; decide

/-- ImplementedSelectorReadsItsInput: the last single selector and the last pair, for both events. -/
theorem test_witness_ImplementedSelectorReadsItsInput :
    (0x1F1F : Word).getLsbD 7 = false ∧ (31 : Fin 32).val = (0x1F1F : Word).toNat % 32 ∧
    resetParams.rsImplemented[(31 : Fin 32)] = true ∧ (0x9F9F : Word).getLsbD 7 = true ∧
    (15 : Fin 16).val = (0x9F9F : Word).toNat % 16 ∧ (15 : Fin 16) ≠ 0 ∧
    resetParams.rsPairImplemented[(15 : Fin 16)] = true ∧ (0x1F1F : Word).getLsbD 15 = false ∧
    (31 : Fin 32).val = (0x1F1F : Word).toNat / 256 % 32 ∧ (0x9F9F : Word).getLsbD 15 = true ∧
    (15 : Fin 16).val = (0x9F9F : Word).toNat / 256 % 16 := by decide

/-- UnpredictableSelectorIsBounded: an unimplemented selector, an unimplemented pair, pair 0, Paused and not. -/
theorem test_witness_UnpredictableSelectorIsBounded :
    ({ resetParams with rsImplemented := Vector.replicate 32 false } : Params).rsImplemented[(31 : Fin 32)] = false ∧
    ({ resetParams with rsPairImplemented := Vector.replicate 16 false } : Params).rsPairImplemented[(15 : Fin 16)] =
      false ∧ (0 : Fin 16) = 0 ∧ ({ resetEnv with resourcesPaused := true } : Env).resourcesPaused = true ∧
    resetEnv.resourcesPaused = false := by decide

/-- EvenCountersHaveNoChain: the last counter that is not implemented, and no `FEAT_ETE`. -/
theorem test_witness_EvenCountersHaveNoChain :
    ({ resetParams with numTraceCounters := 3 } : Params).numTraceCounters.val ≤ (3 : CounterIndex).val ∧
    ({ resetParams with featEte := false } : Params).featEte = false ∧
    ((2 : CounterIndex) = 0 ∨ (2 : CounterIndex) = 2) := by decide

/-- Res0BitsHaveNoEffect: every RES0 bit set against every RES0 bit clear. -/
theorem test_witness_Res0BitsHaveNoEffect : ∀ n : CounterIndex,
    (Vector.ofFn fun k : CounterIndex => ~~~(fieldMask k))[n] &&& fieldMask n =
      State.reset.trccntctlr[n] &&& fieldMask n := by decide

/-- ResetTurnNextState, ResumptionRestarts (both parts), EnvironmentChangesInputsOnly. -/
theorem test_witness_other_turns :
    (withTurn (.reset ⟨State.reset.x, 0, resetEnv⟩)).schedule = .reset ⟨State.reset.x, 0, resetEnv⟩ :: [] ∧
    (withTurn (.resume ⟨State.reset.x, 0, resetEnv⟩)).schedule = .resume ⟨State.reset.x, 0, resetEnv⟩ :: [] ∧
    stoppedState.pe ≠ .running ∧ State.reset.pe = .running ∧
    (withTurn (.environment resetEnv)).schedule = .environment resetEnv :: [] := by decide

/-- Res0ClearIsKept: a state with the invariant and a next state. -/
theorem test_witness_Res0ClearIsKept : HardwiredBitsAreZero (small 0 1 1 0x38184) ∧
    (after (step ((small 0 1 1 0x38184).withFetchWord 32 0xD51104A0))).isSome = true := by
  unfold HardwiredBitsAreZero; decide

/-- ModelFaultIsNeverCleared, ParametersAndProgramAreFixed, HistoryOnlyGrows: a faulted state with a next state. -/
def faulted : State :=
  { withTurn (.reset ⟨State.reset.x, 0, resetEnv⟩) with cuWriteNotIdle := Vector.replicate 4 true }

theorem test_witness_ModelFaultIsNeverCleared :
    (after (step faulted)).isSome = true ∧ faulted.cuWriteNotIdle[(3 : CounterIndex)] = true := by decide

/-- RegisterChangesOnlyByWritesAndReset and ProgrammedOnlyByPredictableWrites: an `MSR` that changes instance 0 and sets its
flag, and an external write that does. -/
theorem test_witness_register_changes :
    (after (step ((small 0 0x203 0 0).withFetchWord 32 0xD51104A0))).map
      (fun t => (t.trccntctlr[(0 : CounterIndex)], t.programmed[(0 : CounterIndex)])) = some (0x203, true) ∧
    ((small 0 0x203 0 0).withFetchWord 32 0xD51104A0).trccntctlr[(0 : CounterIndex)] = 0 ∧
    ((small 0 0x203 0 0).withFetchWord 32 0xD51104A0).programmed[(0 : CounterIndex)] = false ∧
    (after (step (withTurn (.debugger (.bus 0x150 4 (some 0x81)))))).map (fun t => t.trccntctlr[(0 : CounterIndex)]) =
      some 0x81 := by decide

/-! ## Runs -/

/-- A program of one read, just after the reset that starts its run: as P1 begins. -/
def started : State :=
  resetEvent ⟨State.reset.x, 0x1000, resetEnv⟩ { State.reset with program := ⟨0x1000, [0xD53104A1]⟩ }

/-- RunsStartWithReset. -/
theorem test_witness_run_started : Run [] started := by
  refine Run.start rfl rfl (by decide) (fun w hw => ?_) rfl
  rw [List.mem_singleton.1 hw]
  exact ⟨.mrsTrccntctlr0 1, by decide⟩

theorem test_started_is_clean : started.everyOutcomeOk ∧ started.noRefusal ∧ started.noModelFault := by
  have h : started.history = [.reset] := rfl
  simp only [State.everyOutcomeOk, State.noRefusal, State.noModelFault, h]
  exact ⟨by simp, by simp, by decide⟩

theorem test_witness_LastOperationEndsTheRun : started.program.words.length = 0 + 1 ∧
    started.pc = BitVec.ofNat 64 (started.program.base.toNat + 4 * 0) ∧ started.pe = .running ∧ started.schedule = [] ∧
    fetchWord started.program started.pc = some 0xD53104A1 ∧ decode 0xD53104A1 = .instr (.mrsTrccntctlr0 1) ∧
    Permitted (.mrsTrccntctlr0 1) started ∧ started.env.traceUnitIdle = true := by
  refine ⟨rfl, rfl, rfl, rfl, by decide, by decide, ?_, rfl⟩
  unfold Permitted
  decide

/-- The state after the one operation. -/
def ended : State :=
  retire (readMove 0 1 started)

/-- FinalStateHasNoOperationLeft: the run of one read ends in a final state. -/
theorem test_witness_final : ended.final := by
  have h : ended.history = [.reset, .sysRead 0 (readReg 0 started)] := rfl
  refine ⟨rfl, by decide, ?_, ?_, ?_, _, Run.more test_witness_run_started (t := ended) rfl, ?_⟩
  · simp [State.everyOutcomeOk, h]
  · simp [State.noRefusal, h]
  · unfold State.noModelFault
    decide
  · intro k hk
    obtain rfl : k = 0 := Nat.lt_one_iff.1 hk
    have hd : completedAt started ended = [0x1000] := rfl
    rw [hd]
    decide

/-- BrokenRunIsNeverFinal: a trap, a refusal, a model fault, each in a state with a next state. -/
theorem test_witness_BrokenRunIsNeverFinal :
    Event.raised .undefined (.mrsTrccntctlr0 0) ∈
      ({ faulted with history := [.raised .undefined (.mrsTrccntctlr0 0)] } : State).history ∧
    Event.refused .extMalformed ∈ ({ faulted with history := [.refused .extMalformed] } : State).history ∧
    (after (step { faulted with history := [.raised .undefined (.mrsTrccntctlr0 0)] })).isSome = true ∧
    (after (step { faulted with history := [.refused .extMalformed] })).isSome = true := by decide

end Sys2Proof.Tests
end

section
/-! SUPPORT. The encoding statements: which tuples name an instruction (spec 30_encoding.md R61, R62), and what an access
to an absent instance answers (R67). -/

namespace Sys2Proof

/-! ## The two halves of `CRm` -/

/-- `CRm<3:2>` is 0b01 exactly when `CRm` lies in 4 to 7 (R62). -/
theorem crm_high_eq_one_iff (c : BitVec 4) : c.extractLsb' 2 2 = 0b01#2 ↔ c.toNat / 4 = 1 := by
  have hc := c.isLt
  rw [← BitVec.toNat_inj, BitVec.extractLsb'_toNat, Nat.shiftRight_eq_div_pow, BitVec.toNat_ofNat]
  omega

/-- `UInt(CRm<1:0>)` (R62). -/
theorem crm_low_val (c : BitVec 4) : (c.extractLsb' 0 2).toFin.val = c.toNat % 4 := by
  simp

/-- `0b01:m[1:0]` as a number (R62). -/
theorem crm_of_index_toNat (m : CounterIndex) : (0b01#2 ++ BitVec.ofFin (w := 2) m).toNat = 4 + m.val := by
  revert m; decide

/-! ## Tuples -/

/-- The five field values that R61 gives the register, with `CRm` read as a number. -/
theorem SysregAccess.wellFormed_iff (a : SysregAccess) :
    a.wellFormed = true ↔
      a.op0 = 0b10#2 ∧ a.op1 = 0b001#3 ∧ a.crn = 0b0000#4 ∧ a.crm.toNat / 4 = 1 ∧ a.op2 = 0b101#3 := by
  simp only [SysregAccess.wellFormed, Bool.and_eq_true, beq_iff_eq, crm_high_eq_one_iff, and_assoc]

/-- A tuple names an instruction exactly when it is well formed and its direction, index and register number are the
instruction's. -/
theorem decodeAccess_eq_instr_iff (a : SysregAccess) (i : Instr) :
    decodeAccess a = .instr i ↔
      a.wellFormed = true ∧ i.direction = a.direction ∧ i.index.val = a.crm.toNat % 4 ∧ i.reg = a.t := by
  rw [← crm_low_val, ← Fin.ext_iff]
  constructor
  · intro hd
    have hwf := decodeAccess_wellFormed a i hd
    exact ⟨hwf, (decodeAccess_fields a i hwf).1 hd⟩
  · rintro ⟨hwf, hfields⟩
    exact (decodeAccess_fields a i hwf).2 hfields

namespace Machine

/-! ## Absent instances -/

/-- The presence and index tests come before the level and every control (R80). -/
theorem accessOutcome_of_absent (d : Direction) (m : CounterIndex) (p : Params) (e : Env)
    (h : registerPresent p = false ∨ indexImplemented p m = false) :
    accessOutcome d m p e = .raised .undefined := by
  unfold accessOutcome
  rcases h with hp | hm
  · simp [hp]
  · simp [hm]

/-- Below the top of the address space, an outcome other than Ok is taken as an exception of the instruction. -/
theorem exec_of_raised (i : Instr) (s : State) (e : Raised) (hpc : s.pc ≠ topPc)
    (h : accessOutcome i.direction i.index s.params s.env = .raised e) :
    exec i s = .next (takeException e i s) := by
  simp [exec_eq, accessWith, hpc, h]

end Machine

end Sys2Proof

open Sys2Proof Sys2Proof.Machine Sys2Proof.Spec

/-- Settles O3: the five field values are the decoder's well-formedness test, and the rest is what a well-formed tuple
decodes to. -/
theorem tupleNamesInstruction : Obligations.TupleNamesInstruction := by
  refine ⟨fun a i => ?_, fun i => crm_of_index_toNat i.index⟩
  rw [decodeAccess_eq_instr_iff, SysregAccess.wellFormed_iff]
  simp only [and_assoc]

/-- Settles O14: each way to be absent fails the presence test or the index test, and both tests answer `Undefined`. -/
theorem absentInstanceIsUndefined : Obligations.AbsentInstanceIsUndefined := by
  intro i s hpc habsent
  have hfail : registerPresent s.params = false ∨ indexImplemented s.params i.index = false := by
    rcases habsent with hete | hsys | hindex
    · exact .inl (by simp [registerPresent, hete])
    · exact .inl (by simp [registerPresent, hsys])
    · exact .inr (by simpa [indexImplemented] using hindex)
  have hout := accessOutcome_of_absent i.direction i.index s.params s.env hfail
  exact ⟨_, exec_of_raised i s .undefined hpc hout, takeException_pe .undefined i s⟩

end

section
/-! SUPPORT. The move statements: the access procedure answers what the first true condition of the priority tables says
(spec 60_exceptions.md R124), so a permitted access makes its move and retires (40_mrs_msr.md R83, R84, R86). -/

namespace Sys2Proof.Spec

open Sys2Proof.Machine

/-! ## The priority tables as the access procedure -/

/-- What an access ends in when a condition is the first true one (R121, R122, R123). -/
def Cause.outcome : Cause → AccessOutcome
  | .u0 | .u1 | .u2 | .u3 | .u4 | .u5 | .u6 => .raised .undefined
  | .t1 => accessTrap .el1
  | .t2 | .t3 | .t5 => accessTrap .el2
  | .t4 | .t6 | .t7 => accessTrap .el3
  | .haltEl1 | .haltEl2 | .haltEl3 => .raised (.halt .softwareAccess)

/-- What rows of a priority table end in: Ok when no condition is true (R124). -/
def rowsOutcome (rows : List (Bool × Cause)) : AccessOutcome :=
  (((rows.find? (·.1)).map (·.2)).map Cause.outcome).getD .ok

@[simp] theorem rowsOutcome_nil : rowsOutcome [] = .ok := rfl

@[simp] theorem rowsOutcome_cons (b : Bool) (c : Cause) (rows : List (Bool × Cause)) :
    rowsOutcome ((b, c) :: rows) = if b then c.outcome else rowsOutcome rows := by
  cases b <;> rfl

/-- A nested test of one guard is two rows with that guard: U4 and T4, U6 and T6. -/
theorem ite_guard_split {α : Type} (g : Prop) [Decidable g] (u : Bool) (a b c : α) :
    (if g then (if u = true then a else b) else c) =
      if g ∧ u = true then a else if g ∧ u = false then b else c := by
  by_cases hg : g <;> cases u <;> simp [hg]

/-- The access procedure of R80 to R82 ends in the outcome of the first true condition of R124's tables. -/
theorem accessOutcome_eq_rowsOutcome (d : Direction) (m : CounterIndex) (p : Params) (e : Env) :
    accessOutcome d m p e = rowsOutcome (priorityTable d m p e) := by
  have htrc : fineGrainedTrc d e = trcBit d e := by cases d <;> rfl
  have hpresent : (!registerPresent p) = (p.featEte == false || p.sysregTraceAccess == false) := by
    simp [registerPresent]
  have hindex : (!indexImplemented p m) = decide (p.numTraceCounters.val ≤ m.val) := by
    simp [indexImplemented, ← decide_not]
  unfold accessOutcome priorityTable
  rw [hpresent, hindex]
  cases hel : e.el with
  | el0 => simp [Cause.outcome]
  | el1 => simp [Cause.outcome, accessFromEl1, haltTest, htrc, ite_guard_split]
  | el2 => simp [Cause.outcome, accessFromEl2, haltTest, ite_guard_split]
  | el3 => simp [Cause.outcome, accessFromEl3, haltTest]

/-- The outcome of an instruction's access is that of its first cause, and Ok without one. -/
theorem accessOutcome_eq_firstCause (i : Instr) (s : State) :
    accessOutcome i.direction i.index s.params s.env = ((firstCause i s).map Cause.outcome).getD .ok :=
  accessOutcome_eq_rowsOutcome _ _ _ _

/-! ## Permitted accesses -/

/-- A permitted access makes its move and retires. -/
theorem exec_of_permitted {i : Instr} {s : State} (h : Permitted i s) : exec i s = .next (retire (moveOf i s)) := by
  obtain ⟨hcause, hpc⟩ := h
  have hok : accessOutcome i.direction i.index s.params s.env = .ok := by simp [accessOutcome_eq_firstCause, hcause]
  have htop : s.pc ≠ topPc := hpc
  simp [exec_eq, accessWith, htop, hok]

/-- A permitted `MRS` makes the read move and retires (R83). -/
theorem exec_mrs_of_permitted {i : Instr} {s : State} (hd : i.direction = .mrs) (h : Permitted i s) :
    exec i s = .next (retire (readMove i.index i.reg s)) := by
  rw [exec_of_permitted h, moveOf, hd]

/-- A permitted `MSR` makes the write move and retires (R84). -/
theorem exec_msr_of_permitted {i : Instr} {s : State} (hd : i.direction = .msr) (h : Permitted i s) :
    exec i s = .next (retire (writeMove i.index i.reg s)) := by
  rw [exec_of_permitted h, moveOf, hd]

/-- The statements' source operand is the general register that the write move reads. -/
theorem source_eq_readX (i : Instr) (s : State) : source i s = readX i.reg s := rfl

/-- The destination of the read move holds the whole register; number 31 is left out (R26, R83). -/
theorem readMove_x_destination (m : CounterIndex) (t : RegNum) (s : State) (h : t.val < 31) :
    (readMove m t s).x[t.val] = s.trccntctlr[m] := by
  simp [h, readReg]

end Sys2Proof.Spec

open Sys2Proof Sys2Proof.Machine Sys2Proof.Spec

/-- Settles O19: a permitted `MRS` is the read move, which writes the register's value to the destination alone. -/
theorem mrsCopiesTheRegister : Obligations.MrsCopiesTheRegister := by
  intro i s hd hp
  exact ⟨_, exec_mrs_of_permitted hd hp, readMove_x_destination i.index i.reg s, readMove_trccntctlr i.index i.reg s⟩

/-- Settles O22: a permitted `MSR` is the write move, whether or not the trace unit is Idle, and what it leaves in the array
and its records is what `writeReg` of the source operand leaves. -/
theorem msrPresentsAllBits : Obligations.MsrPresentsAllBits := by
  intro i s hd hp
  rw [source_eq_readX]
  exact ⟨_, exec_msr_of_permitted hd hp, writeMove_trccntctlr i.index i.reg s, writeMove_programmed i.index i.reg s,
    writeMove_cuWriteNotIdle i.index i.reg s⟩

end

section
/-! SUPPORT. The trace unit statements: what a `TraceUnit` step records about an implemented counter (spec
41_counter_control_effects.md R104 to R107). -/

namespace Sys2Proof.Machine

/-! ## The events of one counter -/

/-- A decrement by event counts as a decrement (R104). -/
theorem CounterEvents.decrement_of_decrementByEvent (v : CounterEvents) (h : v.decrementByEvent = true) :
    v.decrement = true := by
  simp [CounterEvents.decrement, h]

/-- A reload by event counts as a reload (R105). -/
theorem CounterEvents.reload_of_reloadByEvent (v : CounterEvents) (h : v.reloadByEvent = true) : v.reload = true := by
  simp [CounterEvents.reload, h]

/-- The event that CNTEVENT(n) selects, and it alone, decrements an implemented counter by event (R104). -/
theorem decrementByEvent_of_implemented (s : State) (n : CounterIndex) (h : counterImplemented s.params n = true) :
    decrementByEvent s n = eventActive s.params s.env (cnteventDraw s n) (cntevent s.trccntctlr[n]) := by
  simp [decrementByEvent, readReg, h]

/-- The event that RLDEVENT(n) selects, and it alone, reloads an implemented counter by event (R105). -/
theorem reloadByEvent_of_implemented (s : State) (n : CounterIndex) (h : counterImplemented s.params n = true) :
    reloadByEvent s n = eventActive s.params s.env (rldeventDraw s n) (rldevent s.trccntctlr[n]) := by
  simp [reloadByEvent, readReg, h]

@[simp] theorem eventsOf_decrementByChain (M : CounterModel) (s : State) (n : CounterIndex) :
    (eventsOf M s n).decrementByChain = decrementByChain M s n := rfl

/-- What a chain passes on from Counter 0 is Counter 0's reload, from whichever cause (R107). -/
theorem evenReload_zero (M : CounterModel) (s : State) : evenReload M s 0 = (eventsOf M s 0).reload := rfl

/-- What a chain passes on from Counter 2 is Counter 2's reload, from whichever cause (R107). -/
theorem evenReload_two (M : CounterModel) (s : State) : evenReload M s 2 = (eventsOf M s 2).reload := rfl

/-- An implemented Counter 1 is decremented by chain exactly when CNTCHAIN(1) is 1 and Counter 0 is reloaded (R107). -/
theorem decrementByChain_one (M : CounterModel) (s : State) (h : counterImplemented s.params 1 = true) :
    decrementByChain M s 1 = (cntchain 1 s.trccntctlr[1] && (eventsOf M s 0).reload) := by
  simp [decrementByChain, readReg, h, evenReload_zero]

/-- An implemented Counter 3 is decremented by chain exactly when CNTCHAIN(3) is 1 and Counter 2 is reloaded (R107). -/
theorem decrementByChain_three (M : CounterModel) (s : State) (h : counterImplemented s.params 3 = true) :
    decrementByChain M s 3 = (cntchain 3 s.trccntctlr[3] && (eventsOf M s 2).reload) := by
  simp [decrementByChain, readReg, h, evenReload_two]

/-! ## The step -/

/-- A `TraceUnit` step records the events of each counter. -/
theorem traceUnitStepWith_counterEvents_getElem (M : CounterModel) (s : State) (n : CounterIndex) :
    (traceUnitStepWith M s).counterEvents[n] = eventsOf M s n := by
  simp

/-- At a `TraceUnit` turn the step is the trace unit's, with the turn used up. -/
theorem step_of_traceUnit (s : State) (rest : List Turn) (h : s.schedule = .traceUnit :: rest) :
    step s = .next (traceUnitStepWith Config.counterModel { s with schedule := rest }) := by
  rw [step_of_turn s .traceUnit rest h]
  rfl

end Sys2Proof.Machine

open Sys2Proof Sys2Proof.Machine

/-- Settles O35: the chain of an odd counter passes on the reload of the even counter below it, by event or by self-reload,
and the step records both. -/
theorem chainFollowsTheReloadBelow : Obligations.ChainFollowsTheReloadBelow := by
  rintro M s t hete rfl
  constructor
  · intro hn
    simpa using decrementByChain_one M s (counterImplemented_of s.params 1 hete hn)
  · intro hn
    simpa using decrementByChain_three M s (counterImplemented_of s.params 3 hete hn)

/-- Settles O31: the step records the events of each counter, which for an implemented one are the activity of the two
selected events; using up the turn changes none of what they depend on. -/
theorem selectedEventsCount : Obligations.SelectedEventsCount := by
  intro s rest n hturn hete hn
  have himpl := counterImplemented_of s.params n hete hn
  refine ⟨_, step_of_traceUnit s rest hturn, ?_, ?_, CounterEvents.decrement_of_decrementByEvent _,
    CounterEvents.reload_of_reloadByEvent _⟩
  · rw [traceUnitStepWith_counterEvents_getElem]
    exact decrementByEvent_of_implemented { s with schedule := rest } n himpl
  · rw [traceUnitStepWith_counterEvents_getElem]
    exact reloadByEvent_of_implemented { s with schedule := rest } n himpl

end

section
/-! SUPPORT. The exception statements: which outcome stops the PE, read off the first true condition of the priority
tables (spec 60_exceptions.md R121 to R123). -/

namespace Sys2Proof.Machine

/-- The move of a completed access leaves the PE's status alone. -/
@[simp] theorem moveOf_pe (i : Instr) (s : State) : (moveOf i s).pe = s.pe := by
  rcases moveOf_cases i s with ⟨_, hmove⟩ | ⟨_, hmove⟩
  · simp [hmove]
  · simp [hmove]

/-- At EL0 the procedure ends in `Undefined` before any control is read (R130). -/
theorem accessOutcome_at_el0 (d : Direction) (m : CounterIndex) (p : Params) (e : Env) (h : e.el = .el0) :
    accessOutcome d m p e = .raised .undefined := by
  simp [accessOutcome, h]

end Sys2Proof.Machine

namespace Sys2Proof.Spec

open Sys2Proof.Machine

/-! ## What a stop says about the access -/

/-- A running PE is stopped by an outcome exactly when the access procedure ends in it (R125). -/
theorem exec_stops_iff {s : State} (hs : Runs s) (i : Instr) (e : Raised) :
    (∃ t, exec i s = .next t ∧ t.pe = .stopped e i) ↔
      accessOutcome i.direction i.index s.params s.env = .raised e := by
  obtain ⟨hrun, hpc⟩ := hs
  constructor
  · rintro ⟨t, hexec, hpe⟩
    rcases exec_next i s t hexec with ⟨_, rfl⟩ | ⟨e', hout, rfl⟩
    · simp [hrun] at hpe
    · have he : e' = e := by simpa using hpe
      rw [hout, he]
  · intro hout
    exact ⟨_, exec_of_raised i s e hpc hout, takeException_pe e i s⟩

/-- A running PE is stopped by an outcome exactly when that is the outcome of the first true condition (R124). -/
theorem exec_stops_iff_firstCause {s : State} (hs : Runs s) (i : Instr) (e : Raised) :
    (∃ t, exec i s = .next t ∧ t.pe = .stopped e i) ↔ ∃ c, firstCause i s = some c ∧ c.outcome = .raised e := by
  rw [exec_stops_iff hs, accessOutcome_eq_firstCause]
  cases firstCause i s with
  | none => simp
  | some c => simp

/-! ## Which conditions have which outcome -/

/-- The conditions whose outcome is `Undefined` (R121). -/
theorem Cause.outcome_eq_undefined_iff (c : Cause) :
    c.outcome = .raised .undefined ↔ c ∈ [Cause.u0, .u1, .u2, .u3, .u4, .u5, .u6] := by
  cases c <;> decide

/-- The conditions whose outcome is a trap, each with its target, and the one code (R122). -/
theorem Cause.outcome_eq_trap_iff (c : Cause) (g : TrapTarget) (ec : Nat) :
    c.outcome = .raised (.systemAccessTrap g ec) ↔
      ec = 0x18 ∧ (c, g) ∈
        [(Cause.t1, TrapTarget.el1), (.t2, .el2), (.t3, .el2), (.t4, .el3), (.t5, .el2), (.t6, .el3), (.t7, .el3)] := by
  cases c <;> simp [Cause.outcome, accessTrap, eq_comm, and_comm]

/-- The conditions whose outcome is `Halt(SoftwareAccess)` (R123). -/
theorem Cause.outcome_eq_halt_iff (c : Cause) :
    c.outcome = .raised (.halt .softwareAccess) ↔ c ∈ [Cause.haltEl1, .haltEl2, .haltEl3] := by
  cases c <;> decide

end Sys2Proof.Spec

open Sys2Proof Sys2Proof.Machine Sys2Proof.Spec

/-- Settles O11: the stop is the outcome of the first true condition, and `Undefined` is the outcome of U0 to U6 alone. -/
theorem undefinedExactly : Obligations.UndefinedExactly := by
  intro i s hs
  rw [exec_stops_iff_firstCause hs]
  simp only [Cause.outcome_eq_undefined_iff, and_comm]

/-- Settles O12: the stop is the outcome of the first true condition, and a trap is the outcome of T1 to T7 alone, with that
row's target and the code 0x18. -/
theorem systemAccessTrapExactly : Obligations.SystemAccessTrapExactly := by
  intro i s g ec hs
  rw [exec_stops_iff_firstCause hs]
  simp only [Cause.outcome_eq_trap_iff, and_left_comm, exists_and_left]

/-- Settles O13: the stop is the outcome of the first true condition, and `Halt` is the outcome of the three Halt tests alone;
at EL0 the outcome is `Undefined`. -/
theorem haltExactly : Obligations.HaltExactly := by
  constructor
  · intro i s hs
    rw [exec_stops_iff_firstCause hs]
    simp only [Cause.outcome_eq_halt_iff, and_comm]
  · intro i s t hs hel hexec hpe
    have hhalt := (exec_stops_iff hs i (.halt .softwareAccess)).1 ⟨t, hexec, hpe⟩
    have hundef := accessOutcome_at_el0 i.direction i.index s.params s.env hel
    simp [hundef] at hhalt

end

section
/-! SUPPORT. The encoding statements: decoding is R65's mask and match (spec 30_encoding.md section 2), and the encoder puts
the register number under the match value. -/

namespace Sys2Proof

open Sys2Proof.Spec

/-! ## The match values as numbers -/

/-- The match value: bit 21 is the direction and bits 9:8 are the index (R61, R64). -/
theorem matchWord_toNat (i : Instr) :
    (matchWord i).toNat = 0xD51104A0 + (if i.direction = .mrs then 2 ^ 21 else 0) + 2 ^ 8 * i.index.val := by
  cases i <;> simp [matchWord, Instr.direction, Instr.index]

/-- The five low bits of a match value are clear: the register number goes there. -/
theorem matchWord_mod (i : Instr) : (matchWord i).toNat % 32 = 0 := by
  cases i <;> simp [matchWord]

/-- A concatenation as a number. -/
theorem append_toNat {m n : Nat} (hi : BitVec m) (lo : BitVec n) :
    (hi ++ lo).toNat = hi.toNat * 2 ^ n + lo.toNat := by
  rw [BitVec.toNat_append, ← Nat.shiftLeft_add_eq_or_of_lt lo.isLt, Nat.shiftLeft_eq]

/-- The encoder puts the register number under the match value. -/
theorem encode_toNat (i : Instr) : (encode i).toNat = (matchWord i).toNat + i.reg.val := by
  refine (append_toNat (m := 27) (n := 5) _ (BitVec.ofFin i.reg)).trans ?_
  congr 1
  cases i <;> simp [Instr.access, Instr.direction, Instr.index, matchWord]

/-- Mask and match of a word, read as numbers. -/
theorem mask_eq_matchWord_iff (w : InstrWord) (i : Instr) :
    w &&& 0xFFFFFFE0#32 = matchWord i ↔ w.toNat / 32 * 32 = (matchWord i).toNat := by
  rw [← BitVec.toNat_inj, opcode_mask_toNat]

end Sys2Proof

open Sys2Proof Sys2Proof.Machine Sys2Proof.Spec

/-- Settles O2: the fields that the decoder reads and the match value are the same digits of the word's number, above the
register number. -/
theorem decodeIsMaskAndMatch : Obligations.DecodeIsMaskAndMatch := by
  intro w i
  rw [decode_eq_instr_iff, mask_eq_matchWord_iff, matchWord_toNat]
  have hw := w.isLt
  have hm := i.index.isLt
  by_cases hbit : w.toNat / 2 ^ 21 % 2 = 1
  · cases i.direction with
    | mrs => simp only [hbit, if_true, true_and]; omega
    | msr => simp only [hbit, if_true, reduceCtorEq, if_false, false_and, and_false, false_iff]; omega
  · cases i.direction with
    | mrs => simp only [hbit, if_true, reduceCtorEq, if_false, false_and, and_false, false_iff]; omega
    | msr => simp only [hbit, reduceCtorEq, if_false, true_and]; omega

/-- Settles O1: the encoded word masks to the match value and holds the register number, so by O2 it decodes to the
instruction. -/
theorem decodeOfEncode : Obligations.DecodeOfEncode := by
  intro i
  have hlow := matchWord_mod i
  have hreg := i.reg.isLt
  rw [decodeIsMaskAndMatch, mask_eq_matchWord_iff, encode_toNat]
  omega

/-- Settles O4: fixed words, which the decoder computes. -/
theorem knownWordsDecode : Obligations.KnownWordsDecode := by
  unfold Obligations.KnownWordsDecode
  decide
end

section
/-! SUPPORT. The rules of the whole machine: what any step of any agent does to the register array and its records, to the
parameters, the program and the history (spec 10_state.md R23, R24, R32; 41_counter_control_effects.md R109, R113). -/

namespace Sys2Proof.Spec

open Sys2Proof.Machine

/-! ## Instructions -/

/-- Every condition of the priority tables has an outcome other than Ok. -/
theorem Cause.outcome_ne_ok (c : Cause) : c.outcome ≠ .ok := by
  cases c <;> simp [Cause.outcome, accessTrap]

/-- The access procedure ends in Ok exactly when no condition is true. -/
theorem accessOutcome_eq_ok_iff (i : Instr) (s : State) :
    accessOutcome i.direction i.index s.params s.env = .ok ↔ firstCause i s = none := by
  rw [accessOutcome_eq_firstCause]
  cases firstCause i s with
  | none => simp
  | some c => simpa using c.outcome_ne_ok

/-- An instruction that answers a next state was permitted and made its move, or took an exception. -/
theorem exec_next_permitted {i : Instr} {s t : State} (h : exec i s = .next t) :
    (Permitted i s ∧ t = retire (moveOf i s)) ∨ ∃ e, t = takeException e i s := by
  rcases exec_cases i s with ⟨_, hx⟩ | ⟨hpc, hok, hx⟩ | ⟨_, e, _, hx⟩
  · simp [hx] at h
  · exact .inl ⟨⟨(accessOutcome_eq_ok_iff i s).1 hok, hpc⟩, by simpa using (hx.symm.trans h).symm⟩
  · exact .inr ⟨e, by simpa using (hx.symm.trans h).symm⟩

/-- The statements' invariant of hardwired RES0 bits is the model's. -/
theorem hardwiredBitsAreZero_iff (s : State) : HardwiredBitsAreZero s ↔ s.res0Clear := Iff.rfl

end Sys2Proof.Spec

namespace Sys2Proof.Machine

@[simp] theorem moveOf_params (i : Instr) (s : State) : (moveOf i s).params = s.params := by
  rcases moveOf_cases i s with ⟨_, hmove⟩ | ⟨_, hmove⟩
  · simp [hmove]
  · simp [hmove]

@[simp] theorem moveOf_program (i : Instr) (s : State) : (moveOf i s).program = s.program := by
  rcases moveOf_cases i s with ⟨_, hmove⟩ | ⟨_, hmove⟩
  · simp [hmove]
  · simp [hmove]

/-- A completed access adds one completed access to the history. -/
theorem moveOf_history (i : Instr) (s : State) :
    ∃ e : Event, e.isCompletedAccess = true ∧ (moveOf i s).history = s.history ++ [e] := by
  rcases moveOf_cases i s with ⟨_, hmove⟩ | ⟨_, hmove⟩
  · exact ⟨_, rfl, by rw [hmove, readMove_history]⟩
  · exact ⟨_, rfl, by rw [hmove, writeMove_history]⟩

/-! ## What no step changes, and the history -/

/-- The parameters and the program are kept, and the history grows by at most one event. -/
structure Extends (s t : State) : Prop where
  params : t.params = s.params
  program : t.program = s.program
  history : t.history = s.history ∨ ∃ e, t.history = s.history ++ [e]

/-- An update that keeps the parameters and the program and records one event. -/
theorem Extends.of_event {s t : State} (e : Event) (hp : t.params = s.params) (hg : t.program = s.program)
    (hh : t.history = s.history ++ [e]) : Extends s t :=
  ⟨hp, hg, .inr ⟨e, hh⟩⟩

/-- Using up a turn changes none of these. -/
theorem Extends.of_dropTurn {s t : State} (h : Extends (dropTurn s) t) : Extends s t :=
  ⟨h.params, h.program, h.history⟩

theorem exec_extends {i : Instr} {s t : State} (h : exec i s = .next t) : Extends s t := by
  rcases exec_next i s t h with ⟨_, rfl⟩ | ⟨e, _, rfl⟩
  · obtain ⟨e, _, he⟩ := moveOf_history i s
    exact .of_event e (by simp) (by simp) (by simpa using he)
  · exact .of_event (.raised e i) rfl rfl rfl

theorem externalAccess_extends (a : ExtAccess) (s : State) : Extends s (externalAccess a s) := by
  rcases externalAccess_cases a s with ⟨r, hx⟩ | ⟨n, hx⟩ | ⟨n, w, _, _, hx⟩
  · exact .of_event (.refused r) (by simp [hx]) (by simp [hx]) (by simp [hx])
  · exact .of_event (.extRead n (extValue n s)) (by simp [hx]) (by simp [hx]) (by simp [hx])
  · exact .of_event (.extWrite n w s.env.traceUnitIdle) (by simp [hx]) (by simp [hx]) (by simp [hx])

/-- Every step of every agent keeps the parameters and the program and adds at most one event. -/
theorem step_extends {s t : State} (h : step s = .next t) : Extends s t := by
  rcases step_next s t h with ⟨_, hpe⟩ | ⟨a, _, rfl⟩ | ⟨_, rfl⟩ | ⟨u, _, rfl⟩ | ⟨e, _, rfl⟩ | ⟨u, _, hres⟩
  · obtain ⟨_, _, i, _, _, hexec⟩ := peTurn_next _ _ hpe
    exact (exec_extends hexec).of_dropTurn
  · exact (externalAccess_extends a _).of_dropTurn
  · exact ⟨rfl, rfl, .inl rfl⟩
  · exact .of_event .reset rfl rfl rfl
  · exact ⟨rfl, rfl, .inl rfl⟩
  · obtain ⟨_, rfl⟩ := resumePe_next u _ _ hres
    exact ⟨rfl, rfl, .inl rfl⟩

/-! ## The register array and its records -/

/-- The register array, the ghost flags and the fault records of t are those of s. -/
structure SameRegisters (s t : State) : Prop where
  array : t.trccntctlr = s.trccntctlr
  programmed : t.programmed = s.programmed
  faults : t.cuWriteNotIdle = s.cuWriteNotIdle

/-- Using up a turn leaves the registers alone. -/
theorem SameRegisters.of_dropTurn {s t : State} (h : SameRegisters (dropTurn s) t) : SameRegisters s t :=
  ⟨h.array, h.programmed, h.faults⟩

/-- `WriteReg` does not depend on the schedule. -/
theorem writeReg_dropTurn (n : CounterIndex) (v : Word) (s : State) :
    writeReg n v (dropTurn s) = dropTurn (writeReg n v s) := by
  unfold writeReg
  rw [dropTurn_env]
  split
  · rfl
  · rfl

/-- The PE ran a permitted `MSR` of instance n, which is in the history. -/
structure RanMsr (n : CounterIndex) (s t : State) : Prop where
  turn : s.schedule = [] ∨ s.schedule.head? = some .pe
  running : s.pe = .running
  permitted : ∃ w i, fetchWord s.program s.pc = some w ∧ decode w = .instr i ∧ i.direction = .msr ∧ i.index = n ∧
    Spec.Permitted i s
  history : ∃ v, t.history = s.history ++ [.sysWrite n v s.env.traceUnitIdle]

/-- The debugger wrote instance n with external access allowed, which is in the history. -/
structure WroteExternally (n : CounterIndex) (s t : State) : Prop where
  access : ∃ a, s.schedule.head? = some (.debugger a) ∧ s.env.extAccessAllowed = true ∧ Spec.writesTo a n s
  history : ∃ w, t.history = s.history ++ [.extWrite n w s.env.traceUnitIdle]

/-- What an instruction does to the registers: nothing, or, if it is a permitted `MSR`, one `WriteReg` of its instance. -/
theorem exec_registers {i : Instr} {s t : State} (h : exec i s = .next t) :
    SameRegisters s t ∨ i.direction = .msr ∧ Spec.Permitted i s ∧ ∃ v, SameRegisters (writeReg i.index v s) t ∧
      t.history = s.history ++ [.sysWrite i.index v s.env.traceUnitIdle] := by
  rcases Spec.exec_next_permitted h with ⟨hperm, rfl⟩ | ⟨e, rfl⟩
  · rcases moveOf_cases i s with ⟨_, hmove⟩ | ⟨hd, hmove⟩
    · exact .inl ⟨by simp [hmove], by simp [hmove], by simp [hmove]⟩
    · exact .inr ⟨hd, hperm, readX i.reg s, ⟨by simp [hmove], by simp [hmove], by simp [hmove]⟩, by simp [hmove]⟩
  · exact .inl ⟨rfl, rfl, rfl⟩

/-- What an external access does to the registers: nothing, or, if it is an allowed write, one `WriteReg`. -/
theorem externalAccess_registers (a : ExtAccess) (s : State) :
    SameRegisters s (externalAccess a s) ∨ ∃ n v w, s.env.extAccessAllowed = true ∧ Spec.writesTo a n s ∧
      SameRegisters (writeReg n v s) (externalAccess a s) ∧
      (externalAccess a s).history = s.history ++ [.extWrite n w s.env.traceUnitIdle] := by
  rcases externalAccess_cases a s with ⟨r, hx⟩ | ⟨n, hx⟩ | ⟨n, w, hallow, ha, hx⟩
  · exact .inl (hx ▸ ⟨rfl, rfl, rfl⟩)
  · exact .inl (hx ▸ ⟨rfl, rfl, rfl⟩)
  · exact .inr ⟨n, _, w, hallow, ⟨w, ha⟩, ⟨by rw [hx]; rfl, by rw [hx]; rfl, by rw [hx]; rfl⟩, by simp [hx]⟩

/-- What a step does to the registers: nothing, one `WriteReg` by the PE or by the debugger, or a reset. -/
theorem step_registers {s t : State} (h : step s = .next t) :
    SameRegisters s t ∨
      (∃ n v, SameRegisters (writeReg n v s) t ∧ (RanMsr n s t ∨ WroteExternally n s t)) ∨
      ∃ u, s.schedule.head? = some (.reset u) ∧ SameRegisters (resetEvent u s) t := by
  rcases step_next s t h with ⟨hturn, hpe⟩ | ⟨a, hturn, rfl⟩ | ⟨_, rfl⟩ | ⟨u, hturn, rfl⟩ | ⟨e, _, rfl⟩ | ⟨u, _, hres⟩
  · obtain ⟨hrun, w, i, hfetch, hdec, hexec⟩ := peTurn_next _ _ hpe
    rcases exec_registers hexec with hsame | ⟨hd, hperm, v, hw, hh⟩
    · exact .inl hsame.of_dropTurn
    · rw [writeReg_dropTurn] at hw
      exact .inr (.inl ⟨i.index, v, hw.of_dropTurn, .inl ⟨hturn, hrun, ⟨w, i, hfetch, hdec, hd, rfl, hperm⟩, v, hh⟩⟩)
  · rcases externalAccess_registers a (dropTurn s) with hsame | ⟨n, v, w, hallow, ha, hw, hh⟩
    · exact .inl hsame.of_dropTurn
    · rw [writeReg_dropTurn] at hw
      exact .inr (.inl ⟨n, v, hw.of_dropTurn, .inr ⟨⟨a, hturn, hallow, ha⟩, w, hh⟩⟩)
  · exact .inl ⟨rfl, rfl, rfl⟩
  · exact .inr (.inr ⟨u, hturn, rfl, rfl, rfl⟩)
  · exact .inl ⟨rfl, rfl, rfl⟩
  · obtain ⟨_, rfl⟩ := resumePe_next u _ _ hres
    exact .inl ⟨rfl, rfl, rfl⟩

/-! ## What a write and a reset do to one instance -/

/-- `WriteReg` never clears a recorded model fault. -/
theorem writeReg_keeps_fault (m n : CounterIndex) (v : Word) (s : State) (h : s.cuWriteNotIdle[n] = true) :
    (writeReg m v s).cuWriteNotIdle[n] = true := by
  rw [writeReg_cuWriteNotIdle]
  split
  · exact h
  · exact (Vector.getElem_set ..).trans (by simpa using .inr h)

/-- `WriteReg` sets `Programmed` of its own instance only, and only while the trace unit is Idle. -/
theorem writeReg_sets_programmed {m n : CounterIndex} {v : Word} {s : State} (h : s.programmed[n] = false)
    (hw : (writeReg m v s).programmed[n] = true) : m = n ∧ s.env.traceUnitIdle = true := by
  rw [writeReg_programmed] at hw
  split at hw
  · next hidle =>
    by_contra hne
    have hmn : m.val ≠ n.val := fun e => hne ⟨Fin.ext e, hidle⟩
    exact Bool.false_ne_true (h.symm.trans ((Vector.getElem_set_ne _ _ hmn).symm.trans hw))
  · simp [h] at hw

/-- The invariant of hardwired RES0 bits is about the parameters and the register array alone. -/
theorem State.res0Clear_congr {s t : State} (hp : t.params = s.params) (hr : t.trccntctlr = s.trccntctlr)
    (h : s.res0Clear) : t.res0Clear := by
  simpa only [State.res0Clear, readReg, hp, hr] using h

/-- A reset leaves every hardwired RES0 bit 0. -/
theorem resetEvent_res0Clear (u : Unowned) (s : State) : (resetEvent u s).res0Clear := by
  intro hw n
  simp [readReg, resetDraw, keptBits_masked _ _ _ (show s.params.res0Hardwired = true from hw)]

end Sys2Proof.Machine

open Sys2Proof Sys2Proof.Machine Sys2Proof.Spec

/-- Settles O43: the array is kept, or masked by `WriteReg`, or masked by the reset. -/
theorem res0ClearIsKept : Obligations.Res0ClearIsKept := by
  intro s t hinv hstep
  rw [hardwiredBitsAreZero_iff] at hinv ⊢
  have hparams := (step_extends hstep).params
  rcases step_registers hstep with hsame | ⟨n, v, hw, _⟩ | ⟨u, _, hreset⟩
  · exact State.res0Clear_congr hparams hsame.array hinv
  · exact State.res0Clear_congr (by simpa using hparams) hw.array (writeReg_res0Clear n v s hinv)
  · exact State.res0Clear_congr (by simpa using hparams) hreset.array (resetEvent_res0Clear u s)

/-- Settles O46: a step that changes the array is one `WriteReg`, which changes its own instance only, or a reset. -/
theorem registerChangesOnlyByWritesAndReset : Obligations.RegisterChangesOnlyByWritesAndReset := by
  intro s t n hstep hchanged
  rcases step_registers hstep with hsame | ⟨m, v, hw, hcause⟩ | ⟨u, hturn, _⟩
  · exact absurd (by rw [hsame.array]) hchanged
  · have hmn : n = m := by
      by_contra hne
      exact hchanged (by rw [hw.array, writeReg_other m n v s hne])
    subst hmn
    exact hcause.imp (fun hm => ⟨hm.turn, hm.running, hm.permitted⟩) fun hx => .inl hx.access
  · exact .inr (.inr ⟨u, hturn⟩)

/-- Settles O45: neither `WriteReg` nor a reset clears a record. -/
theorem modelFaultIsNeverCleared : Obligations.ModelFaultIsNeverCleared := by
  intro s t n hstep hfault
  rcases step_registers hstep with hsame | ⟨m, v, hw, _⟩ | ⟨u, _, hreset⟩
  · rwa [hsame.faults]
  · rw [hw.faults]
    exact writeReg_keeps_fault m n v s hfault
  · rwa [hreset.faults]

/-- Settles O47: only `WriteReg` while Idle sets the flag, of its own instance, and each caller of it records the write. -/
theorem programmedOnlyByPredictableWrites : Obligations.ProgrammedOnlyByPredictableWrites := by
  intro s t n hstep hclear hset
  rcases step_registers hstep with hsame | ⟨m, v, hw, hcause⟩ | ⟨u, _, hreset⟩
  · simp [hsame.programmed, hclear] at hset
  · rw [hw.programmed] at hset
    obtain ⟨rfl, hidle⟩ := writeReg_sets_programmed hclear hset
    refine ⟨hidle, ?_⟩
    rw [← hidle]
    exact hcause.imp RanMsr.history WroteExternally.history
  · simp [hreset.programmed] at hset

/-- Settles O48: the frame of every step. -/
theorem parametersAndProgramAreFixed : Obligations.ParametersAndProgramAreFixed :=
  fun _ _ hstep => ⟨(step_extends hstep).params, (step_extends hstep).program⟩

/-- Settles O49: every step adds at most one event. -/
theorem historyOnlyGrows : Obligations.HistoryOnlyGrows :=
  fun _ _ hstep => (step_extends hstep).history

/-- Settles O44: the registers of State.reset are 0. -/
theorem res0ClearAtReset : Obligations.Res0ClearAtReset := by
  intro _ n
  simp [State.reset]
end

section
/-! SUPPORT. The turns: fetching and running one instruction, and the turns of the reset, the environment and the resumption
(spec 70_reset_and_hazards.md section 5, 60_exceptions.md section 4). -/

namespace Sys2Proof

/-- Well-formedness of a program, as numbers (R148). -/
theorem Program.wellFormed_iff (p : Program) :
    p.wellFormed = true ↔ p.base.toNat % 4 = 0 ∧ p.base.toNat + 4 * p.words.length < 2 ^ 64 := by
  simp [Program.wellFormed]

/-- A word that decodes to no instruction is `NotThisRegister`. -/
theorem decode_eq_notThisRegister {w : InstrWord} (h : ∀ i, decode w ≠ .instr i) : decode w = .notThisRegister := by
  cases hd : decode w with
  | instr i => exact absurd hd (h i)
  | notThisRegister => rfl

end Sys2Proof

namespace Sys2Proof.Machine

/-! ## Fetching -/

/-- In a well-formed program `base + 4 * k` is an address, for every k up to the end. -/
theorem listedAddress_toNat {p : Program} (hp : p.wellFormed = true) {k : Nat} (hk : k ≤ p.words.length) :
    (BitVec.ofNat 64 (p.base.toNat + 4 * k)).toNat = p.base.toNat + 4 * k := by
  obtain ⟨_, hend⟩ := p.wellFormed_iff.1 hp
  rw [BitVec.toNat_ofNat, Nat.mod_eq_of_lt (by omega)]

/-- The word fetched at `base + 4 * k` is entry k of the list; at the end there is none. -/
theorem fetchWord_at {p : Program} (hp : p.wellFormed = true) {k : Nat} (hk : k ≤ p.words.length) :
    fetchWord p (BitVec.ofNat 64 (p.base.toNat + 4 * k)) = p.words[k]? := by
  obtain ⟨hbase, _⟩ := p.wellFormed_iff.1 hp
  have hdiff : p.base.toNat + 4 * k - p.base.toNat = 4 * k := by omega
  have hcond : (p.base.toNat + 4 * k) % 4 = 0 ∧ p.base.toNat ≤ p.base.toNat + 4 * k ∧ 4 * k % 4 = 0 := by omega
  simp only [fetchWord, listedAddress_toNat hp hk, hdiff, if_pos hcond, Nat.mul_div_cancel_left k (Nat.zero_lt_succ 3)]

/-- No word is fetched at a misaligned address. -/
theorem fetchWord_misaligned (p : Program) (pc : Word) (h : pc.toNat % 4 ≠ 0) : fetchWord p pc = none :=
  if_neg fun hc => h hc.1

/-- No word is fetched just past the last operation. -/
theorem fetchWord_at_end (p : Program) (pc : Word) (h : atProgramEnd p pc = true) : fetchWord p pc = none := by
  have hdiff : pc.toNat - p.base.toNat = 4 * p.words.length := by
    simp only [atProgramEnd, beq_iff_eq] at h
    omega
  simp [fetchWord, hdiff]

/-! ## A turn of the PE -/

/-- A running PE executes the instruction that the listed word decodes to. -/
theorem peTurn_of_instr {s : State} {w : InstrWord} {i : Instr} (hrun : s.pe = .running)
    (hfetch : fetchWord s.program s.pc = some w) (hdec : decode w = .instr i) : peTurn s = exec i s := by
  simp [peTurn, hrun, hfetch, hdec]

/-- A running PE refuses a word that is none of the eight accesses, with the refusal recorded. -/
theorem peTurn_of_notThisRegister {s : State} {w : InstrWord} (hrun : s.pe = .running)
    (hfetch : fetchWord s.program s.pc = some w) (hdec : decode w = .notThisRegister) :
    peTurn s = .refused (.notThisRegister (s.history ++ [.refused .notThisRegister])) := by
  simp [peTurn, hrun, hfetch, hdec]

/-- A stopped PE has no turn. -/
theorem peTurn_of_stopped {s : State} {e : Raised} {i : Instr} (h : s.pe = .stopped e i) :
    peTurn s = .fault .peStopped := by
  simp [peTurn, h]

/-- Just past the last operation the run has ended. -/
theorem peTurn_at_end {s : State} (hrun : s.pe = .running) (hend : atProgramEnd s.program s.pc = true) :
    peTurn s = .refused .runEnded := by
  simp [peTurn, hrun, fetchWord_at_end _ _ hend, hend]

/-! ## The other turns -/

/-- A stopped PE resumes where the environment puts it. -/
theorem resumePe_of_stopped (u : Unowned) {s : State} (h : s.pe ≠ .running) :
    resumePe u s = .next { s with x := u.x, pc := u.pc, env := u.env, pe := .running } := by
  unfold resumePe
  split
  · contradiction
  · rfl

/-- A running PE cannot be resumed. -/
theorem resumePe_of_running (u : Unowned) {s : State} (h : s.pe = .running) :
    resumePe u s = .refused .resumeNotStopped := by
  simp [resumePe, h]

end Sys2Proof.Machine

open Sys2Proof Sys2Proof.Machine Sys2Proof.Spec

/-- Settles O6: `base + 4 * k` is aligned and lies `4 * k` above the base. -/
theorem fetchReadsTheListedWord : Obligations.FetchReadsTheListedWord := by
  intro p hp
  refine ⟨fun k w hk => ?_, ?_, fetchWord_misaligned p⟩
  · obtain ⟨hlt, _⟩ := List.getElem?_eq_some_iff.1 hk
    rw [fetchWord_at hp hlt.le, hk]
  · rw [fetchWord_at hp le_rfl, List.getElem?_length]

/-- Settles O5: on either kind of PE turn the step is the PE's, which runs what the listed word decodes to. -/
theorem stepRunsDecodedInstruction : Obligations.StepRunsDecodedInstruction := by
  intro s w i hrun hfetch hdec
  constructor
  · intro hturn
    rw [step_of_no_turn s hturn]
    exact peTurn_of_instr hrun hfetch hdec
  · intro rest hturn
    rw [step_of_turn s .pe rest hturn]
    exact peTurn_of_instr (s := { s with schedule := rest }) hrun hfetch hdec

/-- Settles O7: by O2 a word that matches none of the eight decodes to no instruction. -/
theorem stepRefusesOtherWords : Obligations.StepRefusesOtherWords := by
  intro s w hturn hrun hfetch hother
  have hdec : decode w = .notThisRegister :=
    decode_eq_notThisRegister fun i hi => hother i ((decodeIsMaskAndMatch w i).1 hi).1
  rw [step_of_pe s hturn]
  exact peTurn_of_notThisRegister (s := dropTurn s) hrun hfetch hdec

/-- Settles O8: the PE's turn tests its status first. -/
theorem stoppedPeHasNoStep : Obligations.StoppedPeHasNoStep := by
  intro s e i hstopped hturn
  rw [step_of_pe s hturn]
  exact peTurn_of_stopped (s := dropTurn s) hstopped

/-- Settles O39: the fields of `resetEvent`, whose draws are masked when RES0 is hardwired. -/
theorem resetTurnNextState : Obligations.ResetTurnNextState := by
  intro s u rest hturn
  refine ⟨resetEvent u { s with schedule := rest }, step_of_turn s (.reset u) rest hturn,
    (hardwiredBitsAreZero_iff _).2 (resetEvent_res0Clear u _), fun n => ⟨?_, ?_⟩, ?_⟩
  · simp only [resetEvent_trccntctlr, Fin.getElem_fin, Vector.getElem_ofFn]
    rfl
  · simp
  · simp

/-- Settles O40: the resumption tests the PE's status. -/
theorem resumptionRestarts : Obligations.ResumptionRestarts := by
  intro s u rest hturn
  rw [step_of_turn s (.resume u) rest hturn]
  exact ⟨resumePe_of_stopped u (s := { s with schedule := rest }),
    resumePe_of_running u (s := { s with schedule := rest })⟩

/-- Settles O41: the turn is the update. -/
theorem environmentChangesInputsOnly : Obligations.EnvironmentChangesInputsOnly :=
  fun s e rest hturn => step_of_turn s (.environment e) rest hturn

/-- Settles O42: the fields of State.reset; its program is empty, so the PE's turn is at the end of the run. -/
theorem powerOnState : Obligations.PowerOnState := by
  refine ⟨fun n => ⟨?_, ?_⟩, fun n => ?_, rfl, rfl, fun k => ?_, ?_⟩
  · simp [State.reset]
  · simp [State.reset]
  · simp [State.reset]
  · simp [State.reset]
  · rw [step_of_no_turn _ rfl]
    exact peTurn_at_end rfl rfl
end

section
/-! SUPPORT. The access procedure: how an access that does not complete ends, and which inputs an instruction reads (spec
60_exceptions.md, 40_mrs_msr.md sections 2 and 3). -/

namespace Sys2Proof.Machine

/-! ## Accesses that complete -/

/-- Below the top of the address space, an access whose outcome is Ok makes its move and retires. -/
theorem exec_of_ok (i : Instr) (s : State) (hpc : s.pc ≠ topPc)
    (h : accessOutcome i.direction i.index s.params s.env = .ok) : exec i s = .next (retire (moveOf i s)) := by
  simp [exec_eq, accessWith, hpc, h]

@[simp] theorem moveOf_pc (i : Instr) (s : State) : (moveOf i s).pc = s.pc := by
  rcases moveOf_cases i s with ⟨_, hmove⟩ | ⟨_, hmove⟩
  · simp [hmove]
  · simp [hmove]

/-! ## Which inputs an instruction reads -/

/-- A move reads the inputs through `TraceUnitIdle` alone, and keeps them. -/
theorem moveOf_with_env (i : Instr) (s : State) (e : Env) (h : e.traceUnitIdle = s.env.traceUnitIdle) :
    moveOf i { s with env := e } = { moveOf i s with env := e } := by
  unfold moveOf
  cases i.direction with
  | mrs =>
    simp only [readMove, writeX]
    split
    · rfl
    · rfl
  | msr =>
    simp only [writeMove, writeReg, h]
    split
    · rfl
    · rfl

/-- The next state of an instruction depends on the inputs through the outcome of its access and `TraceUnitIdle` alone, and
keeps them. -/
theorem exec_with_env {i : Instr} {s t : State} (e : Env)
    (hout : accessOutcome i.direction i.index s.params e = accessOutcome i.direction i.index s.params s.env)
    (hidle : e.traceUnitIdle = s.env.traceUnitIdle) (h : exec i s = .next t) :
    exec i { s with env := e } = .next { t with env := e } := by
  rcases exec_cases i s with ⟨_, hx⟩ | ⟨hpc, hok, hx⟩ | ⟨hpc, r, hraised, hx⟩
  · simp [hx] at h
  · obtain rfl : retire (moveOf i s) = t := by simpa using hx.symm.trans h
    rw [exec_of_ok i { s with env := e } hpc (hout.trans hok), moveOf_with_env i s e hidle]
    rfl
  · obtain rfl : takeException r i s = t := by simpa using hx.symm.trans h
    exact exec_of_raised i { s with env := e } r hpc (hout.trans hraised)

/-- A read's outcome does not depend on the fine-grained write bit. -/
theorem accessOutcome_mrs_without_hdfgwtr (m : CounterIndex) (p : Params) (e : Env) (b : Bool) :
    accessOutcome .mrs m p { e with hdfgwtrEl2Trc := b } = accessOutcome .mrs m p e := rfl

/-- A write's outcome does not depend on the fine-grained read bit. -/
theorem accessOutcome_msr_without_hdfgrtr (m : CounterIndex) (p : Params) (e : Env) (b : Bool) :
    accessOutcome .msr m p { e with hdfgrtrEl2Trc := b } = accessOutcome .msr m p e := rfl

/-- At EL2 and EL3 no outcome depends on a fine-grained bit. -/
theorem accessOutcome_high_without_trc (d : Direction) (m : CounterIndex) (p : Params) (e : Env) (b c : Bool)
    (h : e.el = .el2 ∨ e.el = .el3) :
    accessOutcome d m p { e with hdfgrtrEl2Trc := b, hdfgwtrEl2Trc := c } = accessOutcome d m p e := by
  rcases h with h | h
  · simp only [accessOutcome, h]
    rfl
  · simp only [accessOutcome, h]
    rfl

/-! ## The syndrome -/

/-- The syndrome of a trap with code 0x18, as a number (R136). -/
theorem trapSyndrome_value (i : Instr) :
    trapSyndrome 0x18 i = BitVec.ofNat 64
      (0x622A4008 + 2 * i.index.val + 32 * i.reg.val + if i.direction = .mrs then 1 else 0) := by
  cases i
  all_goals
    rename_i t
    revert t
    decide

/-- What a handler would see while the PE is stopped by a trap. -/
theorem reportedSyndrome_of_trap {s : State} {g : TrapTarget} {ec : Nat} {i : Instr}
    (h : s.pe = .stopped (.systemAccessTrap g ec) i) : reportedSyndrome s = some (trapSyndrome ec i) := by
  simp [reportedSyndrome, h]

end Sys2Proof.Machine

open Sys2Proof Sys2Proof.Machine Sys2Proof.Spec

/-- Settles O9: the address is tested first. -/
theorem topOfAddressSpaceRefused : Obligations.TopOfAddressSpaceRefused := by
  intro i s hpc
  rw [exec_eq]
  exact if_pos hpc

/-- Settles O10: the access procedure ends in one outcome of the closed type; Ok retires, and any other stops the PE. -/
theorem everyAccessHasOneOutcome : Obligations.EveryAccessHasOneOutcome := by
  rintro i s ⟨hrun, hpc⟩
  have hstops : ∀ e, accessOutcome i.direction i.index s.params s.env = .raised e →
      ∃ t, exec i s = .next t ∧ t.pe = .stopped e i := fun e he => (exec_stops_iff ⟨hrun, hpc⟩ i e).2 he
  rcases accessOutcome_closed i.direction i.index s.params s.env with hok | hundef | ⟨g, htrap⟩ | hhalt
  · exact ⟨_, exec_of_ok i s hpc hok, .inl ⟨by simpa using hrun, by simp⟩⟩
  · obtain ⟨t, hexec, hpe⟩ := hstops _ hundef
    exact ⟨t, hexec, .inr (.inl hpe)⟩
  · obtain ⟨t, hexec, hpe⟩ := hstops _ htrap
    exact ⟨t, hexec, .inr (.inr (.inl ⟨g, hpe⟩))⟩
  · obtain ⟨t, hexec, hpe⟩ := hstops _ hhalt
    exact ⟨t, hexec, .inr (.inr (.inr hpe))⟩

/-- Settles O15: at EL0 the outcome is `Undefined`, and taking it changes the PE's status and the history alone. -/
theorem el0NeverAccesses : Obligations.El0NeverAccesses := by
  intro i s hpc hel
  exact exec_of_raised i s .undefined hpc (accessOutcome_at_el0 _ _ _ _ hel)

/-- Settles O16: with a true condition the outcome is not Ok, so it is taken as an exception. -/
theorem nonOkChangesNothing : Obligations.NonOkChangesNothing := by
  intro i s hpc hcause
  cases hout : accessOutcome i.direction i.index s.params s.env with
  | ok => simp [(accessOutcome_eq_ok_iff i s).1 hout] at hcause
  | raised e => exact ⟨e, exec_of_raised i s e hpc hout⟩

/-- Settles O17: the outcome of an access does not depend on the other direction's bit, nor on either at EL2 and EL3. -/
theorem fineGrainedTrapsAreDirectional : Obligations.FineGrainedTrapsAreDirectional := by
  refine ⟨fun i s b hd => ⟨?_, fun t ht => ?_⟩, fun i s b hd t ht => ?_, fun i s b c hel t ht => ?_⟩
  · simp only [firstCause, hd]
    rfl
  · exact exec_with_env _ (by rw [hd, accessOutcome_mrs_without_hdfgwtr]) rfl ht
  · exact exec_with_env _ (by rw [hd, accessOutcome_msr_without_hdfgrtr]) rfl ht
  · exact exec_with_env _ (accessOutcome_high_without_trc _ _ _ _ b c hel) rfl ht

/-- Settles O18: the reported syndrome is R136's, whose fields are those of the instruction's tuple. -/
theorem trapSyndromeValue : Obligations.TrapSyndromeValue := by
  intro i s t g _ _ hpe
  rw [reportedSyndrome_of_trap hpe, trapSyndrome_value]
end

section
/-! SUPPORT. The moves of `MRS` and `MSR`: the whole next state of a permitted access, and the frame of every access (spec
40_mrs_msr.md sections 2 to 4, 10_state.md section 5). -/

namespace Sys2Proof.Machine

/-! ## The moves as record updates -/

/-- The read move and retirement change the destination, the pc and the history (R83, R86). -/
theorem retire_readMove (m : CounterIndex) (t : RegNum) (s : State) :
    retire (readMove m t s) =
      { s with
        x := if h : t.val < 31 then s.x.set t.val s.trccntctlr[m] else s.x
        pc := s.pc + 4#64
        history := s.history ++ [.sysRead m s.trccntctlr[m]] } := by
  unfold readMove writeX
  split
  · rfl
  · rfl

/-- `WriteReg` while Idle stores the value and sets `Programmed(n)`. -/
theorem writeReg_of_idle (n : CounterIndex) (v : Word) {s : State} (h : s.env.traceUnitIdle = true) :
    writeReg n v s = { s with
      trccntctlr := s.trccntctlr.set n (keptBits s.params n v)
      programmed := s.programmed.set n true } := by
  simp [writeReg, h, setProgrammed, storeReg]

/-- `WriteReg` while not Idle records the model fault and stores a free value. -/
theorem writeReg_of_not_idle (n : CounterIndex) (v : Word) {s : State} (h : s.env.traceUnitIdle = false) :
    writeReg n v s = { s with
      trccntctlr := s.trccntctlr.set n (keptBits s.params n (Config.freeBits s.draws))
      cuWriteNotIdle := s.cuWriteNotIdle.set n true
      draws := s.draws + 1 } := by
  simp [writeReg, h, recordWriteNotIdle, storeReg]

/-- The read move leaves every general register but the destination. -/
theorem readMove_x_other (m : CounterIndex) (t : RegNum) (s : State) (k : Fin 31) (h : k.val ≠ t.val) :
    (readMove m t s).x[k] = s.x[k] := by
  rw [readMove_x, writeX_x]
  split
  · exact Vector.getElem_set_ne _ _ h.symm
  · rfl

/-- `WriteReg` leaves every other instance's ghost flag. -/
theorem writeReg_programmed_other (n k : CounterIndex) (v : Word) (s : State) (h : k ≠ n) :
    (writeReg n v s).programmed[k] = s.programmed[k] := by
  rw [writeReg_programmed]
  split
  · exact Vector.getElem_set_ne _ _ (fun e => h (Fin.ext e.symm))
  · rfl

/-- `WriteReg` leaves every other instance's fault record. -/
theorem writeReg_cuWriteNotIdle_other (n k : CounterIndex) (v : Word) (s : State) (h : k ≠ n) :
    (writeReg n v s).cuWriteNotIdle[k] = s.cuWriteNotIdle[k] := by
  rw [writeReg_cuWriteNotIdle]
  split
  · rfl
  · exact Vector.getElem_set_ne _ _ (fun e => h (Fin.ext e.symm))

end Sys2Proof.Machine

namespace Sys2Proof.Spec

open Sys2Proof.Machine

/-- The bits that the statements say are kept are those that the model keeps. -/
theorem kept_eq_keptBits (n : CounterIndex) (v : Word) (s : State) : kept n v s = keptBits s.params n v := rfl

end Sys2Proof.Spec

open Sys2Proof Sys2Proof.Machine Sys2Proof.Spec

/-- Settles O20: a permitted `MRS` is the read move. -/
theorem mrsNextState : Obligations.MrsNextState := by
  intro i s hd hp
  rw [exec_mrs_of_permitted hd hp, retire_readMove]

/-- Settles O21: an `MRS` that answers a next state made the read move or took an exception. -/
theorem mrsFrame : Obligations.MrsFrame := by
  intro i s t hd hexec
  rcases exec_next i s t hexec with ⟨_, rfl⟩ | ⟨e, _, rfl⟩
  · rw [moveOf, hd]
    exact ⟨readMove_x_other i.index i.reg s, by simp⟩
  · simp

/-- Settles O23: a permitted `MSR` is the write move, and `WriteReg` while Idle stores the value. -/
theorem msrIdleNextState : Obligations.MsrIdleNextState := by
  intro i s hd hp hidle
  rw [exec_msr_of_permitted hd hp, writeMove, writeReg_of_idle _ _ hidle, hidle]
  rfl

/-- Settles O24: a permitted `MSR` is the write move, and `WriteReg` while not Idle stores a free value. -/
theorem msrNotIdleNextState : Obligations.MsrNotIdleNextState := by
  intro i s hd hp hidle
  rw [exec_msr_of_permitted hd hp, writeMove, writeReg_of_not_idle _ _ hidle, hidle]
  rfl

/-- Settles O25: an `MSR` that answers a next state made one `WriteReg` of its instance or took an exception. -/
theorem msrFrame : Obligations.MsrFrame := by
  intro i s t hd hexec
  rcases exec_next i s t hexec with ⟨_, rfl⟩ | ⟨e, _, rfl⟩
  · rw [moveOf, hd]
    refine ⟨by simp, fun k hk => ?_, by simp⟩
    simp only [retire_trccntctlr, retire_programmed, retire_cuWriteNotIdle, writeMove_trccntctlr, writeMove_programmed,
      writeMove_cuWriteNotIdle]
    exact ⟨writeReg_other _ k _ s hk, writeReg_programmed_other _ k _ s hk, writeReg_cuWriteNotIdle_other _ k _ s hk⟩
  · simp
end

section
/-! SUPPORT. The external view: which external accesses are refused, and what an allowed one does (spec 20_memory.md sections 1
to 3). -/

namespace Sys2Proof.Machine

/-! ## Allowed accesses -/

/-- An allowed read of an implemented instance records its low word. -/
theorem extRead_allowed {n : CounterIndex} {s : State} (h : s.env.extAccessAllowed = true)
    (hi : counterImplemented s.params n = true) : extRead n s = record (.extRead n (extValue n s)) s :=
  extGuard_allowed n _ s h hi

/-- An allowed write of an implemented instance is `WriteReg`, with its record. -/
theorem extWrite_allowed {n : CounterIndex} {w : ExtWord} {s : State} (h : s.env.extAccessAllowed = true)
    (hi : counterImplemented s.params n = true) :
    extWrite n w s = record (.extWrite n w s.env.traceUnitIdle) (writeReg n (extWriteValue n w s) s) :=
  extGuard_allowed n _ s h hi

/-- The step of a debugger turn is its access, with the turn used up. -/
theorem step_of_debugger (s : State) (a : ExtAccess) (rest : List Turn) (h : s.schedule = .debugger a :: rest) :
    step s = .next (externalAccess a { s with schedule := rest }) :=
  step_of_turn s (.debugger a) rest h

/-- An allowed read or write of an instance that is not implemented records that and does nothing else. -/
theorem externalAccess_not_implemented {a : ExtAccess} {n : CounterIndex} (ha : a = .read n ∨ ∃ w, a = .write n w)
    {s : State} (hallow : s.env.extAccessAllowed = true) (himpl : counterImplemented s.params n = false) :
    externalAccess a s = recordRefusal .extNotImplemented s := by
  rcases ha with rfl | ⟨w, rfl⟩
  · simp [externalAccess, extRead, extGuard, hallow, himpl]
  · simp [externalAccess, extWrite, extGuard, hallow, himpl]

theorem counterImplemented_eq_false (p : Params) (n : CounterIndex)
    (h : p.featEte = false ∨ p.numTraceCounters.val ≤ n.val) : counterImplemented p n = false := by
  rcases h with h | h
  · simp [counterImplemented, h]
  · simp [counterImplemented, indexImplemented, Nat.not_lt.2 h]

/-- An offset that is no instance's is found nowhere. -/
theorem extIndexAt_eq_none (p : Params) (off : Word) (h : ∀ n : CounterIndex, p.extOffset[n] ≠ off) :
    extIndexAt p off = none := by
  simpa [extIndexAt, List.find?_eq_none] using ⟨h 0, h 1, h 2, h 3⟩

/-- A bus access of another shape, while external access is allowed, records that and does nothing else. -/
theorem extBus_malformed (off : Word) (bytes : Nat) (data : Option ExtWord) {s : State}
    (hallow : s.env.extAccessAllowed = true)
    (h : bytes ≠ 4 ∨ off.toNat % 4 ≠ 0 ∨ ∀ n : CounterIndex, s.params.extOffset[n] ≠ off) :
    extBus off bytes data s = recordRefusal .extMalformed s := by
  unfold extBus
  split
  · next hshape =>
    obtain ⟨hbytes, halign⟩ := hshape
    have hnone : extIndexAt s.params off = none :=
      extIndexAt_eq_none _ _ ((h.resolve_left (not_not_intro hbytes)).resolve_left (not_not_intro halign))
    simp [hnone, extMalformedAccess, hallow]
  · simp [extMalformedAccess, hallow]

/-! ## The low word -/

/-- The low word of the bits that are kept depends on the low word alone. -/
theorem keptBits_low_congr (p : Params) (n : CounterIndex) {v v' : Word}
    (h : v.extractLsb' 0 32 = v'.extractLsb' 0 32) :
    (keptBits p n v).extractLsb' 0 32 = (keptBits p n v').extractLsb' 0 32 := by
  unfold keptBits
  split
  · rw [BitVec.extractLsb'_and, BitVec.extractLsb'_and, h]
  · exact h

/-! ## Writes -/

/-- An allowed write while Idle keeps the upper word, stores the lower one and sets `Programmed(n)`. -/
theorem extWrite_of_idle {n : CounterIndex} (w : ExtWord) {s : State} (hallow : s.env.extAccessAllowed = true)
    (himpl : counterImplemented s.params n = true) (hidle : s.env.traceUnitIdle = true) :
    extWrite n w s = { s with
      trccntctlr := s.trccntctlr.set n (keptBits s.params n (s.trccntctlr[n].extractLsb' 32 32 ++ w))
      programmed := s.programmed.set n true
      history := s.history ++ [.extWrite n w true] } := by
  rw [extWrite_allowed hallow himpl, writeReg_of_idle n _ hidle, hidle]
  rfl

/-- An allowed write while not Idle records the model fault and stores a free value. -/
theorem extWrite_of_not_idle {n : CounterIndex} (w : ExtWord) {s : State} (hallow : s.env.extAccessAllowed = true)
    (himpl : counterImplemented s.params n = true) (hidle : s.env.traceUnitIdle = false) :
    extWrite n w s = { s with
      trccntctlr := s.trccntctlr.set n (keptBits s.params n (Config.freeBits s.draws))
      cuWriteNotIdle := s.cuWriteNotIdle.set n true
      draws := s.draws + 1
      history := s.history ++ [.extWrite n w false] } := by
  rw [extWrite_allowed hallow himpl, writeReg_of_not_idle n _ hidle, hidle]
  rfl

/-- After an allowed write while Idle the instance holds the old upper word with the written one, as kept. -/
theorem readReg_extWrite {n : CounterIndex} (w : ExtWord) {s : State} (hallow : s.env.extAccessAllowed = true)
    (himpl : counterImplemented s.params n = true) (hidle : s.env.traceUnitIdle = true) :
    readReg n (extWrite n w s) = keptBits s.params n (s.trccntctlr[n].extractLsb' 32 32 ++ w) := by
  simp [extWrite_of_idle w hallow himpl hidle, readReg]

/-- After an `MSR` while Idle the instance holds the source operand, as kept. -/
theorem readReg_retire_writeMove (m : CounterIndex) (t : RegNum) {s : State} (hidle : s.env.traceUnitIdle = true) :
    readReg m (retire (writeMove m t s)) = keptBits s.params m (readX t s) := by
  simp [readReg, hidle]

end Sys2Proof.Machine

namespace Sys2Proof.Spec

open Sys2Proof.Machine

/-! ## Permitted accesses and the external view -/

/-- Whether an access is permitted depends on the parameters, the inputs and the pc. -/
theorem Permitted.congr {i : Instr} {s t : State} (h : Permitted i s) (hp : t.params = s.params) (he : t.env = s.env)
    (hpc : t.pc = s.pc) : Permitted i t := by
  simpa only [Permitted, firstCause, hp, he, hpc] using h

/-- The instance of a permitted access is implemented. -/
theorem Permitted.counterImplemented {i : Instr} {s : State} (h : Permitted i s) :
    counterImplemented s.params i.index = true := by
  have hok := (accessOutcome_eq_ok_iff i s).2 h.1
  have hpresent : registerPresent s.params = true ∧ indexImplemented s.params i.index = true := by
    by_contra habsent
    have hout := accessOutcome_of_absent i.direction i.index s.params s.env (by simpa [imp_iff_not_or] using habsent)
    simp [hout] at hok
  obtain ⟨hreg, hindex⟩ := hpresent
  simp only [registerPresent, Bool.and_eq_true] at hreg
  simp [Machine.counterImplemented, hreg.1, hindex]

/-- An external write does not make an access stop being permitted. -/
theorem Permitted.extWrite {i : Instr} {s : State} (h : Permitted i s) (n : CounterIndex) (w : ExtWord) :
    Permitted i (extWrite n w s) := by
  rcases extGuard_cases n (fun s => record (.extWrite n w s.env.traceUnitIdle) (writeReg n (extWriteValue n w s) s)) s
    with ⟨r, hx⟩ | ⟨_, _, hx⟩
  · exact h.congr (by simp [Machine.extWrite, hx]) (by simp [Machine.extWrite, hx]) (by simp [Machine.extWrite, hx])
  · exact h.congr (by simp [Machine.extWrite, hx]) (by simp [Machine.extWrite, hx]) (by simp [Machine.extWrite, hx])

end Sys2Proof.Spec

open Sys2Proof Sys2Proof.Machine Sys2Proof.Spec

/-- Settles O26: after the `MSR` the external read sees the stored value; after the external write the `MRS` copies it. -/
theorem viewsShareTheRegister : Obligations.ViewsShareTheRegister := by
  constructor
  · intro i s hd hp hidle hallow
    refine ⟨_, exec_msr_of_permitted hd hp, ?_⟩
    rw [extRead_allowed (by simpa using hallow) (by simpa using hp.counterImplemented), record_history, extValue,
      readReg_retire_writeMove _ _ hidle, source_eq_readX, kept_eq_keptBits]
  · intro i s w hreg hd hp hidle hallow
    refine ⟨_, exec_mrs_of_permitted hd (hp.extWrite i.index w), ?_⟩
    rw [kept_eq_keptBits, ← readReg_extWrite w hallow hp.counterImplemented hidle]
    exact readMove_x_destination i.index i.reg _ hreg

/-- Settles O27: the debugger's turn is the read, which is allowed. -/
theorem extReadNextState : Obligations.ExtReadNextState := by
  intro n s rest hturn hallow hete hn
  rw [step_of_debugger s (.read n) rest hturn]
  exact congrArg Host.Outcome.next (extRead_allowed hallow (counterImplemented_of s.params n hete hn))

/-- Settles O28: the debugger's turn is the write, which is allowed, so it is `WriteReg`. -/
theorem extWriteNextState : Obligations.ExtWriteNextState := by
  intro n w s rest hturn hallow hete hn
  have himpl := counterImplemented_of s.params n hete hn
  rw [step_of_debugger s (.write n w) rest hturn]
  constructor
  · intro hidle
    exact congrArg Host.Outcome.next (extWrite_of_idle w (s := { s with schedule := rest }) hallow himpl hidle)
  · intro hidle
    exact congrArg Host.Outcome.next (extWrite_of_not_idle w (s := { s with schedule := rest }) hallow himpl hidle)

/-- Settles O29: access is tested first, then the instance or the shape; each refusal is only recorded. -/
theorem externalAccessRefusals : Obligations.ExternalAccessRefusals := by
  intro s a rest hturn
  rw [step_of_debugger s a rest hturn]
  refine ⟨fun hallow => ?_, fun hallow hexists => ?_, fun hallow hexists => ?_⟩
  · exact congrArg Host.Outcome.next (externalAccess_not_allowed a { s with schedule := rest } hallow)
  · obtain ⟨n, ha, habsent⟩ := hexists
    exact congrArg Host.Outcome.next (externalAccess_not_implemented ha (s := { s with schedule := rest }) hallow
      (counterImplemented_eq_false s.params n habsent))
  · obtain ⟨off, bytes, data, rfl, hshape⟩ := hexists
    exact congrArg Host.Outcome.next (extBus_malformed off bytes data (s := { s with schedule := rest }) hallow hshape)

/-- Settles O54: the shape is admitted, and the lowest instance at the offset is found. -/
theorem alignedBusAccessReachesTheRegister : Obligations.AlignedBusAccessReachesTheRegister := by
  intro s n off hoff halign hlowest
  have hindex := extIndexAt_of_lowest s.params n off hoff hlowest
  constructor
  · simp [externalAccess, extBus, halign, hindex]
  · intro w
    simp [externalAccess, extBus, halign, hindex]

/-- Settles O30: both orders end in a write while Idle, whose low word as kept depends on its own low word alone. -/
theorem twoWritersOneValueRemains : Obligations.TwoWritersOneValueRemains := by
  intro i w s hd hp hidle hallow
  have himpl := hp.counterImplemented
  constructor
  · refine ⟨_, exec_msr_of_permitted hd hp, ?_⟩
    rw [extValue, readReg_extWrite w (by simpa using hallow) (by simpa using himpl) (by simpa using hidle),
      kept_eq_keptBits]
    simp only [retire_params, writeMove_params]
    exact keptBits_low_congr _ _ (BitVec.extractLsb'_append_eq_right.trans BitVec.extractLsb'_append_eq_right.symm)
  · refine ⟨_, exec_msr_of_permitted hd (hp.extWrite i.index w), ?_⟩
    rw [extWrite_of_idle w hallow himpl hidle, extValue, readReg_retire_writeMove]
    · rfl
    · exact hidle
end

section
/-! SUPPORT. The trace unit: what a selector reads, when a counter reloads itself, and that a step depends on the field bits
of the registers alone (spec 41_counter_control_effects.md, 10_state.md sections 1 to 3). -/

namespace Sys2Proof.Machine

/-! ## Selectors -/

/-- A one-bit field as the bit it is. -/
theorem extractLsb'_one_eq_zero_iff (r : Word) (k : Nat) : r.extractLsb' k 1 = 0#1 ↔ r.getLsbD k = false := by
  constructor
  · intro h
    simpa using congrArg (·.getLsbD 0) h
  · intro h
    ext j hj
    obtain rfl : j = 0 := by omega
    simpa using h

/-- TYPE 0 selects `RS(SEL)` (R72). -/
theorem selDecode_single {type : BitVec 1} {sel : BitVec 5} (h : type = 0#1) {j : Fin 32} (hj : j.val = sel.toNat) :
    selDecode type sel = .single j := by
  rw [selDecode, if_pos h, show sel.toFin = j from Fin.ext hj.symm]

/-- TYPE 1 selects `RSPair(SEL[3:0])` (R72). -/
theorem selDecode_pair {type : BitVec 1} {sel : BitVec 5} (h : type ≠ 0#1) {k : Fin 16} (hk : k.val = sel.toNat % 16) :
    selDecode type sel = .pair k := by
  rw [selDecode, if_neg h, show (sel.extractLsb' 0 4).toFin = k from Fin.ext (by simpa using hk.symm)]

/-- The selector of a five-bit field at bit k as a number. -/
theorem extractLsb'_five_toNat (r : Word) (k : Nat) : (r.extractLsb' k 5).toNat = r.toNat / 2 ^ k % 32 := by
  rw [BitVec.extractLsb'_toNat, Nat.shiftRight_eq_div_pow]

/-- The selector with TYPE at bit a and SEL at bit b, when TYPE is 0. -/
theorem selDecode_field_single {r : Word} {a b : Nat} (h : r.getLsbD a = false) {j : Fin 32}
    (hj : j.val = r.toNat / 2 ^ b % 32) : selDecode (r.extractLsb' a 1) (r.extractLsb' b 5) = .single j :=
  selDecode_single ((extractLsb'_one_eq_zero_iff r a).2 h) (by rw [extractLsb'_five_toNat, hj])

/-- The selector with TYPE at bit a and SEL at bit b, when TYPE is 1: SEL[4] is ignored. -/
theorem selDecode_field_pair {r : Word} {a b : Nat} (h : r.getLsbD a = true) {k : Fin 16}
    (hk : k.val = r.toNat / 2 ^ b % 16) : selDecode (r.extractLsb' a 1) (r.extractLsb' b 5) = .pair k :=
  selDecode_pair (by simp [extractLsb'_one_eq_zero_iff, h]) (by rw [extractLsb'_five_toNat, hk]; omega)

/-- An implemented Resource Selector is its input (R101). -/
theorem eventActive_single {p : Params} {j : Fin 32} (e : Env) (free : Bool) (h : p.rsImplemented[j] = true) :
    eventActive p e free (.single j) = e.rs[j] :=
  if_pos h

/-- An implemented pair other than pair 0 is its input (R102). -/
theorem eventActive_pair {p : Params} {k : Fin 16} (e : Env) (free : Bool) (hk : k ≠ 0)
    (h : p.rsPairImplemented[k] = true) : eventActive p e free (.pair k) = e.rsPair[k] :=
  if_pos ⟨hk, h⟩

/-- An unimplemented Resource Selector fires unpredictably (R101). -/
theorem eventActive_single_unimplemented {p : Params} {j : Fin 32} (e : Env) (free : Bool)
    (h : p.rsImplemented[j] = false) : eventActive p e free (.single j) = unpredictableFire e free :=
  if_neg (ne_true_of_eq_false h)

/-- An unimplemented pair, and pair 0, fires unpredictably (R102, R103). -/
theorem eventActive_pair_unpredictable {p : Params} {k : Fin 16} (e : Env) (free : Bool)
    (h : k = 0 ∨ p.rsPairImplemented[k] = false) : eventActive p e free (.pair k) = unpredictableFire e free :=
  if_neg fun hc => h.elim hc.1 fun hf => ne_true_of_eq_false hf hc.2

/-! ## Self-reload -/

/-- An even counter's self-reload is settled without chains, an odd one's with them. -/
theorem selfReload_eq (M : CounterModel) (s : State) (n : CounterIndex) :
    selfReload M s n = reloadBySelf M s (if n.val % 2 = 0 then noChain else decrementByChain M s) n := by
  fin_cases n <;> rfl

/-- A counter that is not implemented has no event. -/
theorem eventsOf_not_implemented (M : CounterModel) (s : State) (n : CounterIndex)
    (h : counterImplemented s.params n = false) : eventsOf M s n = ⟨false, false, false, false⟩ := by
  simp [eventsOf, selfReload_eq, decrementByEvent, decrementByChain, reloadByEvent, reloadBySelf, selfReloadMode, h]

/-- `RLDSELF(n)` of an implemented counter is bit 16. -/
theorem selfReloadMode_of_implemented (s : State) (n : CounterIndex) (h : counterImplemented s.params n = true) :
    selfReloadMode s n = s.trccntctlr[n].getLsbD 16 := by
  simp [selfReloadMode, h, rldself, readReg]

/-! ## The field bits alone -/

/-- s and s' differ, as far as a `TraceUnit` step can tell, in RES0 bits alone. -/
structure SameFields (s s' : State) : Prop where
  params : s'.params = s.params
  env : s'.env = s.env
  draws : s'.draws = s.draws
  counterState : s'.counterState = s.counterState
  fields : ∀ n, readReg n s' &&& fieldMask n = readReg n s &&& fieldMask n

section

variable {s s' : State} (h : SameFields s s')

include h

theorem SameFields.decrementByEvent : decrementByEvent s' = decrementByEvent s := by
  funext n
  have hsel : cntevent (readReg n s') = cntevent (readReg n s) := by
    rw [← cntevent_masked n, h.fields, cntevent_masked]
  simp only [Machine.decrementByEvent, cnteventDraw, hsel, h.params, h.env, h.draws]

theorem SameFields.reloadByEvent : reloadByEvent s' = reloadByEvent s := by
  funext n
  have hsel : rldevent (readReg n s') = rldevent (readReg n s) := by
    rw [← rldevent_masked n, h.fields, rldevent_masked]
  simp only [Machine.reloadByEvent, rldeventDraw, hsel, h.params, h.env, h.draws]

theorem SameFields.selfReloadMode : selfReloadMode s' = selfReloadMode s := by
  funext n
  have hself : rldself (readReg n s') = rldself (readReg n s) := by
    rw [← rldself_masked n, h.fields, rldself_masked]
  simp only [Machine.selfReloadMode, hself, h.params]

theorem SameFields.counterInputs : counterInputs s' = counterInputs s := by
  funext chain
  simp only [Machine.counterInputs, h.decrementByEvent, h.reloadByEvent, h.selfReloadMode]

theorem SameFields.reloadBySelf (M : CounterModel) : reloadBySelf M s' = reloadBySelf M s := by
  funext chain n
  simp only [Machine.reloadBySelf, h.selfReloadMode, h.counterState, h.counterInputs]

theorem SameFields.decrementByChain (M : CounterModel) : decrementByChain M s' = decrementByChain M s := by
  funext n
  have hchain : cntchain n (readReg n s') = cntchain n (readReg n s) := by
    rw [← cntchain_masked n, h.fields, cntchain_masked]
  simp only [Machine.decrementByChain, evenReload, hchain, h.params, h.reloadByEvent, h.reloadBySelf]

theorem SameFields.eventsOf (M : CounterModel) : eventsOf M s' = eventsOf M s := by
  funext n
  simp only [Machine.eventsOf, selfReload_eq, h.decrementByEvent, h.decrementByChain, h.reloadByEvent, h.reloadBySelf]

end

end Sys2Proof.Machine

open Sys2Proof Sys2Proof.Machine Sys2Proof.Spec

/-- Settles O32: the field of the register decodes to the selector, whose input is read. -/
theorem implementedSelectorReadsItsInput : Obligations.ImplementedSelectorReadsItsInput := by
  rintro s n r rfl hete hn
  have himpl := counterImplemented_of s.params n hete hn
  rw [decrementByEvent_of_implemented s n himpl, reloadByEvent_of_implemented s n himpl]
  refine ⟨fun j htype hj hrs => ?_, fun k htype hk hne hrs => ?_, fun j htype hj hrs => ?_,
    fun k htype hk hne hrs => ?_⟩
  · rw [cntevent, cnteventType, cnteventSel, selDecode_field_single htype (by simpa using hj), eventActive_single _ _ hrs]
  · rw [cntevent, cnteventType, cnteventSel, selDecode_field_pair htype (by simpa using hk), eventActive_pair _ _ hne hrs]
  · rw [rldevent, rldeventType, rldeventSel, selDecode_field_single htype hj, eventActive_single _ _ hrs]
  · rw [rldevent, rldeventType, rldeventSel, selDecode_field_pair htype hk, eventActive_pair _ _ hne hrs]

/-- Settles O33: such a selector's event is `UnpredictableFire()`. -/
theorem unpredictableSelectorIsBounded : Obligations.UnpredictableSelectorIsBounded := by
  intro p e free sel hsel
  have hfire : eventActive p e free sel = unpredictableFire e free := by
    cases sel with
    | single j => exact eventActive_single_unimplemented e free hsel
    | pair k => exact eventActive_pair_unpredictable e free hsel
  rw [hfire]
  exact ⟨fun hpaused => by simp [unpredictableFire, hpaused], fun hpaused => by simp [unpredictableFire, hpaused]⟩

/-- Settles O34: a self-reload is bit 16 and the model's answer. -/
theorem selfReloadOnlyInSelfReloadMode : Obligations.SelfReloadOnlyInSelfReloadMode := by
  intro M s n hete hn
  have hmode := selfReloadMode_of_implemented s n (counterImplemented_of s.params n hete hn)
  have hself : (traceUnitStepWith M s).counterEvents[n].reloadBySelf = selfReload M s n := by
    rw [traceUnitStepWith_counterEvents_getElem, eventsOf]
  rw [hself, selfReload_eq, reloadBySelf, hmode]
  exact ⟨fun hbit => by rw [hbit, Bool.false_and], fun hbit => by rw [hbit, Bool.true_and]⟩

/-- Settles O36: no chain ends at an even counter, and every event of a counter asks that it is implemented. -/
theorem evenCountersHaveNoChain : Obligations.EvenCountersHaveNoChain := by
  intro M s n
  rw [traceUnitStepWith_counterEvents_getElem]
  constructor
  · rintro (rfl | rfl)
    · simp [decrementByChain]
    · simp [decrementByChain]
  · intro habsent
    exact eventsOf_not_implemented M s n (counterImplemented_eq_false s.params n habsent)

/-- Settles O37: the two arrays have the same fields, and a step depends on the fields alone. -/
theorem res0BitsHaveNoEffect : Obligations.Res0BitsHaveNoEffect := by
  intro M s r hagree
  have h : SameFields s { s with trccntctlr := r } := ⟨rfl, rfl, rfl, rfl, hagree⟩
  simp only [traceUnitStepWith, h.eventsOf, h.counterInputs, h.decrementByChain]

/-- Settles O38: the recorded events are what the model is told. -/
theorem traceUnitFrame : Obligations.TraceUnitFrame := by
  intro s rest hturn
  refine ⟨Vector.ofFn (eventsOf Config.counterModel { s with schedule := rest }), ?_⟩
  rw [step_of_traceUnit s rest hturn]
  simp only [Fin.getElem_fin, Vector.getElem_ofFn]
  rfl

/-- Settles O55: the bits named in the definitions; 1 and 3 are the odd instances. -/
theorem chainAndSelfReloadBits : Obligations.ChainAndSelfReloadBits := by
  intro n r
  refine ⟨?_, rfl⟩
  fin_cases n <;> rfl
end

section
/-! SUPPORT. Runs: how they start, when they end, and what keeps them from a final state (spec 70_reset_and_hazards.md section
5). -/

namespace Sys2Proof.Machine

/-! ## What every state of a run has -/

/-- The first event of a run is its reset. -/
theorem Run.head_history {done : List Word} {s : State} (h : Run done s) : s.history.head? = some .reset := by
  refine h.invariant (P := fun s => s.history.head? = some .reset) ?_ ?_
  · intro s u hempty _ _ _ _
    simp [hempty]
  · intro s t hfirst hstep
    rcases (step_extends hstep).history with hsame | ⟨e, he⟩
    · rwa [hsame]
    · rw [he, List.head?_append, hfirst, Option.some_or]

/-- The program of a run is well formed. -/
theorem Run.program_wellFormed {done : List Word} {s : State} (h : Run done s) : s.program.wellFormed = true :=
  h.invariant (P := fun s => s.program.wellFormed = true) (fun _ _ _ _ hwf _ _ => hwf)
    fun _ _ hwf hstep => by rwa [(step_extends hstep).program]

/-- The program of a run lists accesses only. -/
theorem Run.program_listed {done : List Word} {s : State} (h : Run done s) : programListed s.program :=
  h.invariant (P := fun s => programListed s.program) (fun _ _ _ _ _ hlisted _ => hlisted)
    fun _ _ hlisted hstep => by rwa [(step_extends hstep).program]

/-! ## What a step leaves for good -/

/-- No step removes an event from the history. -/
theorem mem_history_of_step {s t : State} {e : Event} (h : step s = .next t) (he : e ∈ s.history) : e ∈ t.history := by
  rcases (step_extends h).history with hsame | ⟨e', he'⟩
  · rwa [hsame]
  · rw [he']
    exact List.mem_append_left _ he

/-! ## The last operation -/

/-- The operation after `base + 4 * k` stands at `base + 4 * (k + 1)`. -/
theorem listedAddress_add_four (base k : Nat) :
    BitVec.ofNat 64 (base + 4 * k) + 4#64 = BitVec.ofNat 64 (base + 4 * (k + 1)) := by
  rw [← BitVec.ofNat_add]
  rfl

/-- A move records no model fault, unless it writes while the trace unit is not Idle. -/
theorem moveOf_cuWriteNotIdle (i : Instr) (s : State) (h : i.direction = .msr → s.env.traceUnitIdle = true) :
    (moveOf i s).cuWriteNotIdle = s.cuWriteNotIdle := by
  rcases moveOf_cases i s with ⟨_, hmove⟩ | ⟨hd, hmove⟩
  · simp [hmove]
  · simp [hmove, h hd]

/-- What the end of a run needs of a step that completes an operation of the PE without a model fault. -/
structure CompletesAccess (s t : State) : Prop where
  pe : t.pe = s.pe
  pc : t.pc = s.pc + 4#64
  program : t.program = s.program
  faults : t.cuWriteNotIdle = s.cuWriteNotIdle
  history : ∃ e : Event, e.isCompletedAccess = true ∧ t.history = s.history ++ [e]

/-- On the PE's turn a permitted access completes (while Idle, if it writes). -/
theorem step_completesAccess {s : State} {w : InstrWord} {i : Instr}
    (hturn : s.schedule = [] ∨ s.schedule.head? = some .pe) (hrun : s.pe = .running)
    (hfetch : fetchWord s.program s.pc = some w) (hdec : decode w = .instr i) (hperm : Spec.Permitted i s)
    (hidle : i.direction = .msr → s.env.traceUnitIdle = true) : ∃ t, step s = .next t ∧ CompletesAccess s t := by
  refine ⟨retire (moveOf i (dropTurn s)), ?_, by simp, by simp, by simp, ?_, moveOf_history i (dropTurn s)⟩
  · rw [step_of_pe s hturn, peTurn_of_instr (s := dropTurn s) hrun hfetch hdec,
      Spec.exec_of_permitted (s := dropTurn s) hperm]
  · exact moveOf_cuWriteNotIdle i (dropTurn s) hidle

section

variable {s t : State} (h : CompletesAccess s t)

include h

/-- The operation completed is the one at the pc. -/
theorem CompletesAccess.completedAt : completedAt s t = [s.pc] := by
  obtain ⟨e, he, hhist⟩ := h.history
  exact completedAt_of_access hhist he

/-- The only new event is a completed access. -/
theorem CompletesAccess.mem_history {e : Event} (he : e ∈ t.history) : e ∈ s.history ∨ e.isCompletedAccess = true := by
  obtain ⟨e', he', hhist⟩ := h.history
  rw [hhist, List.mem_append, List.mem_singleton] at he
  exact he.imp id fun heq => by rwa [heq]

theorem CompletesAccess.everyOutcomeOk (hok : s.everyOutcomeOk) : t.everyOutcomeOk :=
  fun r i hmem => (h.mem_history hmem).elim (hok r i) Bool.false_ne_true

theorem CompletesAccess.noRefusal (href : s.noRefusal) : t.noRefusal :=
  fun r hmem => (h.mem_history hmem).elim (href r) Bool.false_ne_true

/-- From the last operation of a well-formed program the pc goes to the end. -/
theorem CompletesAccess.atProgramEnd {k : Nat} (hwf : s.program.wellFormed = true)
    (hlength : s.program.words.length = k + 1) (hpc : s.pc = BitVec.ofNat 64 (s.program.base.toNat + 4 * k)) :
    atProgramEnd t.program t.pc = true := by
  have haddr := listedAddress_toNat hwf hlength.ge
  rw [h.program, h.pc, hpc, listedAddress_add_four, Machine.atProgramEnd, haddr, hlength, beq_self_eq_true]

end

end Sys2Proof.Machine

open Sys2Proof Sys2Proof.Machine Sys2Proof.Spec

/-- Settles O50: the start of a run has the three properties, and every step keeps them. -/
theorem runsStartWithReset : Obligations.RunsStartWithReset :=
  fun _ _ hrun => ⟨hrun.head_history, hrun.program_wellFormed, hrun.program_listed⟩

/-- Settles O51: the outcome, the refusal or the model fault is still recorded after the step. -/
theorem brokenRunIsNeverFinal : Obligations.BrokenRunIsNeverFinal := by
  rintro s t hstep hbroken ⟨_, _, hok, hnoRefusal, hnoFault, _⟩
  rcases hbroken with ⟨e, i, hmem⟩ | ⟨r, hmem⟩ | ⟨n, hfault⟩
  · exact hok e i (mem_history_of_step hstep hmem)
  · exact hnoRefusal r (mem_history_of_step hstep hmem)
  · simpa [hnoFault n] using modelFaultIsNeverCleared s t n hstep hfault

/-- Settles O53: past the last operation no word is fetched. -/
theorem finalStateHasNoOperationLeft : Obligations.FinalStateHasNoOperationLeft := by
  rintro s ⟨hrun, hend, _⟩ hturn
  rw [step_of_pe s hturn]
  exact peTurn_at_end (s := dropTurn s) hrun hend

/-- Settles O52: the permitted access completes the last operation, leaves the pc past it, and records nothing that breaks
the run. -/
theorem lastOperationEndsTheRun : Obligations.LastOperationEndsTheRun := by
  intro s done k w i hrun hlength hpc hdone hpe hok hnoRefusal hnoFault hturn hfetch hdec hperm hidle
  obtain ⟨t, hstep, hcomplete⟩ := step_completesAccess hturn hpe hfetch hdec hperm hidle
  refine ⟨t, hstep, hcomplete.pe.trans hpe, hcomplete.atProgramEnd hrun.program_wellFormed hlength hpc,
    hcomplete.everyOutcomeOk hok, hcomplete.noRefusal hnoRefusal, fun n => ?_, _, hrun.more hstep, fun j hj => ?_⟩
  · rw [hcomplete.faults]
    exact hnoFault n
  · rw [hcomplete.program] at hj ⊢
    rw [hcomplete.completedAt, List.mem_append, List.mem_singleton, hpc]
    rcases Nat.lt_succ_iff_lt_or_eq.1 (hlength ▸ hj) with hlt | rfl
    · exact .inl (hdone j hlt)
    · exact .inr rfl
end
